-- ==== Sys2Proof/Word.lean ====
section
/-! DEFINITION. The one word width of the block (spec/00_scope.md R4: every register and every memory word is 32 bits). -/

namespace Sys2Proof

/-- A word of the command port, a register or a memory cell (R4); a `u32` of R6 when used as an integer. -/
abbrev Word := BitVec 32

/-- A word that holds a sample: the 32-bit pattern of a binary32 number (R7). -/
abbrev F32 := BitVec 32

end Sys2Proof
end

