-- ==== Sys2Proof/Syntax.lean ====
section
/-! DEFINITION. The syntax of commands: one constructor per row of spec/opcode_table.json (30_encoding.md R86). -/

namespace Sys2Proof

/-- The twenty commands (R86), the block's instruction set (R1). A field `u` of the command word (a unit, voice or
memory-space number) and a register address `imm` are numbers (R83); an operand word is used whole (R83). -/
inductive Instr where
  /-- `NOP` (R100). -/
  | nop
  /-- `INIT` (R101). -/
  | init
  /-- `RDREG reg` (R105). -/
  | rdreg (reg : Nat)
  /-- `WRREG reg, data` (R106). -/
  | wrreg (reg : Nat) (data : Word)
  /-- `RDMEM space, index` (R107). -/
  | rdmem (space : Nat) (index : Word)
  /-- `WRMEM space, index, data` (R108). -/
  | wrmem (space : Nat) (index data : Word)
  /-- `ENV.PROC inst, x` (R120). -/
  | envProc (inst : Nat) (x : F32)
  /-- `LPF.PROC x` (R121). -/
  | lpfProc (x : F32)
  /-- `ZD.PROC x` (R122). -/
  | zdProc (x : F32)
  /-- `CD.PROC x` (R144). -/
  | cdProc (x : F32)
  /-- `CT.PROC x` (R146). -/
  | ctProc (x : F32)
  /-- `AN.PROC len` (R168). -/
  | anProc (len : Word)
  /-- `V.SETRATE v, period` (R191). -/
  | vSetRate (v : Nat) (period : Word)
  /-- `V.SETWAVE v, len` (R192). -/
  | vSetWave (v : Nat) (len : Word)
  /-- `V.NEXT v` (R194). -/
  | vNext (v : Nat)
  /-- `ENG.PROC x` (R197). -/
  | engProc (x : F32)
  /-- `PIPE.SMP x` (R223). -/
  | pipeSmp (x : F32)
  /-- `PIPE.BLK` (R224). -/
  | pipeBlk
  /-- `CTICK c0, c1, c2, c3` (R225). -/
  | ctick (c0 c1 c2 c3 : F32)
  /-- `FPOLL` (R228). -/
  | fpoll
  deriving DecidableEq, Repr

end Sys2Proof
end

