-- ==== Sys2Proof/WellFormed.lean ====
section
/-! DEFINITION. Which terms of `Instr` are commands: the fields `u` and `imm` must fit the command word (30_encoding.md
R81, R83). Whether an operand that fits is in range is not a matter of form: the command is then answered with an
error status (R85). -/

namespace Sys2Proof

/-- A unit, voice or space number fits the 8-bit field `u` (R81). -/
def fitsUnit (u : Nat) : Bool := decide (u < 2 ^ 8)

/-- A register address fits the 16-bit field `imm` (R81). -/
def fitsAddress (a : Nat) : Bool := decide (a < 2 ^ 16)

/-- The command can be written as command words (R81, R82). -/
def Instr.wellFormed : Instr → Bool
  | .nop => true
  | .init => true
  | .rdreg reg => fitsAddress reg
  | .wrreg reg _ => fitsAddress reg
  | .rdmem space _ => fitsUnit space
  | .wrmem space _ _ => fitsUnit space
  | .envProc inst _ => fitsUnit inst
  | .lpfProc _ => true
  | .zdProc _ => true
  | .cdProc _ => true
  | .ctProc _ => true
  | .anProc _ => true
  | .vSetRate v _ => fitsUnit v
  | .vSetWave v _ => fitsUnit v
  | .vNext v => fitsUnit v
  | .engProc _ => true
  | .pipeSmp _ => true
  | .pipeBlk => true
  | .ctick _ _ _ _ => true
  | .fpoll => true

end Sys2Proof
end

