-- ==== Sys2Proof/Decode.lean ====
section
/-! DEFINITION. Decoding and encoding of commands (spec/30_encoding.md R81 to R88). -/

namespace Sys2Proof

/-- The twenty opcodes by name (R86). -/
inductive Opcode where
  | nop | init | rdreg | wrreg | rdmem | wrmem
  | envProc | lpfProc | zdProc
  | cdProc | ctProc
  | anProc
  | vSetRate | vSetWave | vNext | engProc
  | pipeSmp | pipeBlk | ctick | fpoll
  deriving DecidableEq, Repr

/-- The four command formats (R82), named by their operand words. -/
inductive Format where
  /-- format `N`: the command word alone -/
  | n
  /-- format `W1`: one operand word -/
  | w1
  /-- format `W2`: two operand words -/
  | w2
  /-- format `W4`: four operand words -/
  | w4
  deriving DecidableEq, Repr

/-- Why a command word is illegal (R87). -/
inductive Illegal where
  /-- case (a): the opcode is none of the twenty -/
  | unknownOpcode (op : Nat)
  /-- case (b): a field that R86 shows as 0 is not zero -/
  | reservedField (op : Opcode)
  deriving DecidableEq, Repr

/-- What the decoder finds at the head of the words received. -/
inductive Decoded where
  /-- a command, and the words after it -/
  | command (i : Instr) (rest : List Word)
  /-- an illegal command word (R87), and the words after the command it heads -/
  | illegal (why : Illegal) (rest : List Word)
  /-- the words of the command have not all arrived (R80, R88) -/
  | incomplete
  deriving DecidableEq, Repr

/-- Field `op` of a command word, bits 31:24 (R81). -/
def opField (w : Word) : Nat := w.toNat / 2 ^ 24

/-- Field `u` of a command word, bits 23:16 (R81). -/
def unitField (w : Word) : Nat := w.toNat / 2 ^ 16 % 2 ^ 8

/-- Field `imm` of a command word, bits 15:0 (R81). -/
def immField (w : Word) : Nat := w.toNat % 2 ^ 16

/-- The value of field `op` for each command (R86). -/
def Opcode.code : Opcode → Nat
  | .nop => 0x00 | .init => 0x01 | .rdreg => 0x02 | .wrreg => 0x03 | .rdmem => 0x04 | .wrmem => 0x05
  | .envProc => 0x10 | .lpfProc => 0x11 | .zdProc => 0x12
  | .cdProc => 0x20 | .ctProc => 0x21
  | .anProc => 0x30
  | .vSetRate => 0x40 | .vSetWave => 0x41 | .vNext => 0x42 | .engProc => 0x43
  | .pipeSmp => 0x50 | .pipeBlk => 0x51 | .ctick => 0x52 | .fpoll => 0x53

/-- Every opcode of R86, in the table's order. -/
def allOpcodes : List Opcode :=
  [.nop, .init, .rdreg, .wrreg, .rdmem, .wrmem, .envProc, .lpfProc, .zdProc, .cdProc, .ctProc, .anProc,
   .vSetRate, .vSetWave, .vNext, .engProc, .pipeSmp, .pipeBlk, .ctick, .fpoll]

/-- The command an `op` value names (R86), or none for the reserved values of R87. -/
def opcodeOf (op : Nat) : Option Opcode := allOpcodes.find? (fun o => o.code == op)

/-- The format column of R86. -/
def Opcode.format : Opcode → Format
  | .nop => .n | .init => .n | .rdreg => .n | .wrreg => .w1 | .rdmem => .w1 | .wrmem => .w2
  | .envProc => .w1 | .lpfProc => .w1 | .zdProc => .w1
  | .cdProc => .w1 | .ctProc => .w1
  | .anProc => .w1
  | .vSetRate => .w1 | .vSetWave => .w1 | .vNext => .n | .engProc => .w1
  | .pipeSmp => .w1 | .pipeBlk => .n | .ctick => .w4 | .fpoll => .n

/-- The number of operand words of a format (R82). -/
def Format.operands : Format → Nat
  | .n => 0 | .w1 => 1 | .w2 => 2 | .w4 => 4

/-- The column `u` of R86: the command takes a unit, voice or space number. -/
def Opcode.takesUnit : Opcode → Bool
  | .nop => false | .init => false | .rdreg => false | .wrreg => false | .rdmem => true | .wrmem => true
  | .envProc => true | .lpfProc => false | .zdProc => false
  | .cdProc => false | .ctProc => false
  | .anProc => false
  | .vSetRate => true | .vSetWave => true | .vNext => true | .engProc => false
  | .pipeSmp => false | .pipeBlk => false | .ctick => false | .fpoll => false

/-- The column `imm` of R86: the command takes a register address. -/
def Opcode.takesAddress : Opcode → Bool
  | .nop => false | .init => false | .rdreg => true | .wrreg => true | .rdmem => false | .wrmem => false
  | .envProc => false | .lpfProc => false | .zdProc => false
  | .cdProc => false | .ctProc => false
  | .anProc => false
  | .vSetRate => false | .vSetWave => false | .vNext => false | .engProc => false
  | .pipeSmp => false | .pipeBlk => false | .ctick => false | .fpoll => false

/-- The number of words of the command a command word heads: a function of `op` alone (R82, R88); one word for an
unknown opcode (R87 (a)). -/
def commandLength (w : Word) : Nat :=
  match opcodeOf (opField w) with
  | some o => 1 + o.format.operands
  | none => 1

/-- No field that R86 shows as 0 is set (R87 (b)). -/
def reservedClear (o : Opcode) (w : Word) : Bool :=
  (o.takesUnit || unitField w == 0) && (o.takesAddress || immField w == 0)

/-- The command an opcode, the fields of its word and its operand words stand for (R83, R86). -/
def assemble (o : Opcode) (w : Word) (ops : List Word) : Instr :=
  let u := unitField w
  let a := immField w
  let op := fun i : Nat => ops.getD i 0
  match o with
  | .nop => .nop
  | .init => .init
  | .rdreg => .rdreg a
  | .wrreg => .wrreg a (op 0)
  | .rdmem => .rdmem u (op 0)
  | .wrmem => .wrmem u (op 0) (op 1)
  | .envProc => .envProc u (op 0)
  | .lpfProc => .lpfProc (op 0)
  | .zdProc => .zdProc (op 0)
  | .cdProc => .cdProc (op 0)
  | .ctProc => .ctProc (op 0)
  | .anProc => .anProc (op 0)
  | .vSetRate => .vSetRate u (op 0)
  | .vSetWave => .vSetWave u (op 0)
  | .vNext => .vNext u
  | .engProc => .engProc (op 0)
  | .pipeSmp => .pipeSmp (op 0)
  | .pipeBlk => .pipeBlk
  | .ctick => .ctick (op 0) (op 1) (op 2) (op 3)
  | .fpoll => .fpoll

/-- The decoder (R87, R88): find the length from `op`, wait for that many words, then read the command or refuse it by
name. The operand words of an illegal command of a known opcode are consumed (R87 (b)). -/
def decode : List Word → Decoded
  | [] => .incomplete
  | w :: ws =>
    match opcodeOf (opField w) with
    | none => .illegal (.unknownOpcode (opField w)) ws
    | some o =>
      let k := o.format.operands
      if ws.length < k then .incomplete
      else if reservedClear o w then .command (assemble o w (ws.take k)) (ws.drop k)
      else .illegal (.reservedField o) (ws.drop k)

/-- The opcode of a command (R86). -/
def Instr.opcode : Instr → Opcode
  | .nop => .nop
  | .init => .init
  | .rdreg _ => .rdreg
  | .wrreg _ _ => .wrreg
  | .rdmem _ _ => .rdmem
  | .wrmem _ _ _ => .wrmem
  | .envProc _ _ => .envProc
  | .lpfProc _ => .lpfProc
  | .zdProc _ => .zdProc
  | .cdProc _ => .cdProc
  | .ctProc _ => .ctProc
  | .anProc _ => .anProc
  | .vSetRate _ _ => .vSetRate
  | .vSetWave _ _ => .vSetWave
  | .vNext _ => .vNext
  | .engProc _ => .engProc
  | .pipeSmp _ => .pipeSmp
  | .pipeBlk => .pipeBlk
  | .ctick _ _ _ _ => .ctick
  | .fpoll => .fpoll

/-- A command word from its three fields (R81). -/
def commandWord (o : Opcode) (u imm : Nat) : Word := BitVec.ofNat 32 (o.code * 2 ^ 24 + u * 2 ^ 16 + imm)

/-- The words of a command (R81, R82, R86). -/
def encode : Instr → List Word
  | .nop => [commandWord .nop 0 0]
  | .init => [commandWord .init 0 0]
  | .rdreg reg => [commandWord .rdreg 0 reg]
  | .wrreg reg data => [commandWord .wrreg 0 reg, data]
  | .rdmem space index => [commandWord .rdmem space 0, index]
  | .wrmem space index data => [commandWord .wrmem space 0, index, data]
  | .envProc inst x => [commandWord .envProc inst 0, x]
  | .lpfProc x => [commandWord .lpfProc 0 0, x]
  | .zdProc x => [commandWord .zdProc 0 0, x]
  | .cdProc x => [commandWord .cdProc 0 0, x]
  | .ctProc x => [commandWord .ctProc 0 0, x]
  | .anProc len => [commandWord .anProc 0 0, len]
  | .vSetRate v period => [commandWord .vSetRate v 0, period]
  | .vSetWave v len => [commandWord .vSetWave v 0, len]
  | .vNext v => [commandWord .vNext v 0]
  | .engProc x => [commandWord .engProc 0 0, x]
  | .pipeSmp x => [commandWord .pipeSmp 0 0, x]
  | .pipeBlk => [commandWord .pipeBlk 0 0]
  | .ctick c0 c1 c2 c3 => [commandWord .ctick 0 0, c0, c1, c2, c3]
  | .fpoll => [commandWord .fpoll 0 0]

/-- Word number `k` of an instruction given as one number, bit 0 the least significant bit of its first word. -/
def wordAt (w k : Nat) : Word := BitVec.ofNat 32 (w / 2 ^ (32 * k))

/-- The words of the one command that the low `nbits` bits of `w` hold; bits above `nbits` are 0. -/
def commandWords (nbits w : Nat) : List Word :=
  let v := w % 2 ^ nbits
  ([wordAt v 0, wordAt v 1, wordAt v 2, wordAt v 3, wordAt v 4]).take (commandLength (wordAt v 0))

/-- The command the decoder reads from an instruction whose bits are `w`, numbered as spec/opcode_table.json numbers
them. -/
def decodeTableWord (nbits w : Nat) : Option Instr :=
  match decode (commandWords nbits w) with
  | .command i _ => some i
  | .illegal _ _ => none
  | .incomplete => none

end Sys2Proof
end

