-- ==== Sys2Proof/Machine/Float.lean ====
section
/-! DEFINITION. Binary32 arithmetic (spec/00_scope.md R7 to R11). Every finite binary32 number is a whole number of units
of 2^-149, so each operation is computed exactly on whole numbers and rounded once. -/

namespace Sys2Proof.Machine

/-- `ONE` (R11), 1.0. -/
def fOne : F32 := 0x3F800000
/-- `HALF` (R11), 0.5. -/
def fHalf : F32 := 0x3F000000
/-- `PZERO` (R11), +0.0. -/
def pzero : F32 := 0x00000000
/-- -0.0 (R7). -/
def nzero : F32 := 0x80000000
/-- `TWO_PI` (R11). -/
def twoPi : F32 := 0x40C90FDB
/-- +inf (R7). -/
def plusInf : F32 := 0x7F800000
/-- The canonical quiet NaN (R8). -/
def qNaN : F32 := 0x7FC00000
/-- The binary32 number nearest pi, the bound of R12 (d). -/
def fPi : F32 := 0x40490FDB

/-- The sign bit, bit 31 (R7). -/
def fSign (a : F32) : Bool := decide (2 ^ 31 ≤ a.toNat)
/-- The biased exponent, bits 30:23 (R7). -/
def fExp (a : F32) : Nat := a.toNat / 2 ^ 23 % 2 ^ 8
/-- The fraction, bits 22:0 (R7). -/
def fFrac (a : F32) : Nat := a.toNat % 2 ^ 23

/-- A NaN (R7). -/
def isNaN (a : F32) : Bool := fExp a == 255 && fFrac a != 0
/-- An infinity (R7). -/
def isInf (a : F32) : Bool := fExp a == 255 && fFrac a == 0
/-- A zero of either sign (R7). -/
def isZero (a : F32) : Bool := fExp a == 0 && fFrac a == 0
/-- Neither a NaN nor an infinity (R7). -/
def isFinite (a : F32) : Bool := fExp a != 255

/-- The absolute value of a number in units of 2^-149 (R7); an infinity counts as 2^277 units, above every finite
number, which is all that the comparisons need. -/
def fMag (a : F32) : Nat :=
  if fExp a = 0 then fFrac a else (2 ^ 23 + fFrac a) * 2 ^ (fExp a - 1)

/-- The value of a number in units of 2^-149. -/
def fUnits (a : F32) : Int := if fSign a then -(fMag a : Int) else (fMag a : Int)

/-- `num / den` rounded to a whole number, ties to even (R8). -/
def roundDiv (num den : Nat) : Nat :=
  let q := num / den
  let r := num % den
  if den < 2 * r ∨ (2 * r = den ∧ q % 2 = 1) then q + 1 else q

/-- By how many binary places the last place of the result lies above 2^-149: none for subnormals and the first binade,
else as many as leave 24 significant bits. -/
def roundShift (num den : Nat) : Nat := Nat.log2 (num / den) - 23

/-- The pattern, sign aside, of the binary32 number nearest to `num / den` units of 2^-149, ties to even, overflow to
infinity, gradual underflow (R8). A carry out of the 24 bits runs into the exponent by itself. -/
def roundBits (num den : Nat) : Nat :=
  let k := roundShift num den
  min (k * 2 ^ 23 + roundDiv num (den * 2 ^ k)) 0x7F800000

/-- A pattern with its sign bit (R7). -/
def withSign (neg : Bool) (bits : Nat) : F32 := BitVec.ofNat 32 (bits + if neg then 2 ^ 31 else 0)

/-- The binary32 number nearest to `num / den` units of 2^-149 with the given sign (R8). -/
def roundTo (neg : Bool) (num den : Nat) : F32 := withSign neg (roundBits num den)

/-- The same number with the other sign. -/
def fneg (a : F32) : F32 := a ^^^ 0x80000000

/-- `fadd` (R8). The sign of an exact zero sum and the sums with an infinity are IEEE 754's. PRESUMED, log 11. -/
def fadd (a b : F32) : F32 :=
  if isNaN a || isNaN b then qNaN
  else if isInf a then (if isInf b && (fSign a != fSign b) then qNaN else a)
  else if isInf b then b
  else
    let s := fUnits a + fUnits b
    if s = 0 then (if fSign a && fSign b then nzero else pzero)
    else roundTo (decide (s < 0)) s.natAbs 1

/-- `fsub` (R8): the sum with the negated second operand. -/
def fsub (a b : F32) : F32 := fadd a (fneg b)

/-- `fmul` (R8). -/
def fmul (a b : F32) : F32 :=
  let neg := fSign a != fSign b
  if isNaN a || isNaN b then qNaN
  else if isInf a || isInf b then (if isZero a || isZero b then qNaN else withSign neg 0x7F800000)
  else roundTo neg (fMag a * fMag b) (2 ^ 149)

/-- `fdiv` (R8). The quotients by and of infinities are IEEE 754's. PRESUMED, log 11. -/
def fdiv (a b : F32) : F32 :=
  let neg := fSign a != fSign b
  if isNaN a || isNaN b then qNaN
  else if isInf a then (if isInf b then qNaN else withSign neg 0x7F800000)
  else if isInf b then withSign neg 0
  else if isZero b then (if isZero a then qNaN else withSign neg 0x7F800000)
  else roundTo neg (fMag a * 2 ^ 149) (fMag b)

/-- `fabs` clears bit 31 (R9). -/
def fabs (a : F32) : F32 := a &&& 0x7FFFFFFF

/-- Neither operand is a NaN: the quiet comparisons of R9 are false otherwise. -/
def ordered (a b : F32) : Bool := !isNaN a && !isNaN b

/-- `fgt` (R9). -/
def fgt (a b : F32) : Bool := ordered a b && decide (fUnits b < fUnits a)
/-- `flt` (R9). -/
def flt (a b : F32) : Bool := ordered a b && decide (fUnits a < fUnits b)
/-- `fge` (R9). -/
def fge (a b : F32) : Bool := ordered a b && decide (fUnits b ≤ fUnits a)
/-- `fle` (R9). -/
def fle (a b : F32) : Bool := ordered a b && decide (fUnits a ≤ fUnits b)
/-- `feq` (R9). -/
def feq (a b : F32) : Bool := ordered a b && decide (fUnits a = fUnits b)

/-- `u2f` (R10). -/
def u2f (n : Word) : F32 := roundTo false (n.toNat * 2 ^ 149) 1

/-- `floor_u(a, L)` (R10); `none` is the marker `OUT_OF_RANGE`. -/
def floorU (a : F32) (l : Word) : Option Nat :=
  if isNaN a || flt a pzero then none
  else
    let n := fMag a / 2 ^ 149
    if l.toNat ≤ n then none else some n

end Sys2Proof.Machine
end

