-- ==== Sys2Proof/Machine/Arith.lean ====
section
/-! DEFINITION. The integer operations of spec/00_scope.md R6. -/

namespace Sys2Proof.Machine

/-- A Boolean result as a word: 1 or 0 (30_encoding.md R84). -/
def boolWord (b : Bool) : Word := if b then 1 else 0

/-- The `u32` with the value `n` (R6); every use has `n < 2^32`. -/
def u32 (n : Nat) : Word := BitVec.ofNat 32 n

/-- `sat_inc` (R6). -/
def satInc (a : Word) : Word := if a = 0xFFFFFFFF then a else a + 1

/-- A circular index moves on by one (20_memory.md R70). -/
def incMod (idx cap : Word) : Word := u32 ((idx.toNat + 1) % cap.toNat)

/-- `submod(e, s, m)` (R6), the distance from `s` to `e` on a ring of `m`. -/
def subMod (e s m : Word) : Word := if s.toNat ≤ e.toNat then e - s else e - s + m

/-- `ispow2` (R6). -/
def isPow2 (n : Nat) : Bool := decide (1 ≤ n) && (2 ^ Nat.log2 n == n)

/-- `bitrev(i, b)` (R6): bit `j` of the result is bit `b-1-j` of `i`. -/
def bitrev (i : Nat) : Nat → Nat
  | 0 => 0
  | b + 1 => (i % 2) * 2 ^ b + bitrev (i / 2) b

/-- The cell of `HIST` with the `i`-th oldest of the last `n` samples (20_memory.md R70). -/
def histIndex (h cap n i : Nat) : Nat := (h + cap - n + i) % cap

/-- The cell of `VBUF` that is `VBUF[v][p][i]` (20_memory.md R61). -/
def vbufIndex (wt v : Nat) (p : Bool) (i : Nat) : Nat := (2 * v + p.toNat) * wt + i

end Sys2Proof.Machine
end

