-- ==== Sys2Proof/Config.lean ====
section
/-! DEFINITION. The open parameters of spec/00_scope.md R4. Each is an opaque constant without a body, so a statement
about the model holds for every value of it. The constraints of R12 are put on top in Machine/Params.lean. -/

namespace Sys2Proof

/-- `ARENA_CAP` (R4, R103), in 32-bit words. OPEN in the spec (92_eei_decisions.md P1). DESIGN CHOICE, log 5: the value
`State.reset` takes for its field `arenaCap`. -/
opaque Config.arenaCap : Nat

/-- `WINCOEF(N, i)` (R4) where R12 (b) does not fix it. DESIGN CHOICE, log 6. -/
opaque Config.winFree : Nat → Nat → F32

/-- `TWCOS(N, k)` (R4) where R12 (c) does not fix it. DESIGN CHOICE, log 6. -/
opaque Config.twCosFree : Nat → Nat → F32

/-- `TWSIN(N, k)` (R4) where R12 (c) does not fix it. DESIGN CHOICE, log 6. -/
opaque Config.twSinFree : Nat → Nat → F32

/-- `ATAN2_32(y, x)` (R4) as far as R12 (d) leaves it free. DESIGN CHOICE, log 7. -/
opaque Config.atan2Free : F32 → F32 → F32

end Sys2Proof
end

