-- ==== Sys2Proof/Machine/State.lean ====
section
/-! DEFINITION. The state of the block as plain data (spec/10_state.md), its value after reset (R50), and the reasons
the model itself can stop. -/

namespace Sys2Proof.Machine

/-- The state of a gate (00_scope.md R16, 10_state.md R25). -/
inductive Gate where
  | off
  | on
  deriving DecidableEq, Repr

/-- The configuration registers `CFG.*` (R40). -/
structure Cfg where
  /-- `CFG.FS`, sample rate in Hz -/
  fs : F32
  /-- `CFG.BLOCK`, audio block length -/
  block : Word
  /-- `CFG.WIN`, analysis window length `N` -/
  win : Word
  /-- `CFG.HOP`, hop length -/
  hop : Word
  /-- `CFG.NV`, voice count -/
  nv : Word
  /-- `CFG.RING`, capacity of the tracker's ring -/
  ring : Word
  /-- `CFG.HIST`, capacity of the history buffer -/
  hist : Word
  /-- `CFG.WT`, capacity of each wavetable buffer -/
  wt : Word
  deriving DecidableEq, Repr

/-- The low-pass filter (R22) with its coefficient register (R41). -/
structure Lpf where
  decay : F32
  value : F32
  prev : F32
  deriving DecidableEq, Repr

/-- One envelope detector (R23) with its rate registers (R41). -/
structure Env where
  rise : F32
  fall : F32
  value : F32
  deriving DecidableEq, Repr

/-- The control register `CTL` (R42): its two bits; bits 31:2 read as 0 and cannot be written. -/
structure Ctl where
  /-- bit 0, `LPF_EN` -/
  lpfEn : Bool
  /-- bit 1, `AN_AUTO` -/
  anAuto : Bool
  deriving DecidableEq, Repr

/-- The cycle detector: three gates (R25), counter and length (R26). -/
structure Cd where
  high : Gate
  low : Gate
  cycle : Gate
  count : Word
  length : Word
  deriving DecidableEq, Repr

/-- The cycle tracker (R27); its ring is memory space `RING`. -/
structure Ct where
  wr : Word
  lastZc : Word
  cycStart : Word
  cycEnd : Word
  cycLen : Word
  deriving DecidableEq, Repr

/-- The analyzer's registers (R28) and the analyzer agent's bookkeeping (R33). -/
structure An where
  k : Word
  fEst : F32
  busy : Bool
  primed : Bool
  deriving DecidableEq, Repr

/-- The register bank of one voice (R29). -/
structure Voice where
  phase : F32
  inc : F32
  period : Word
  actLen : Word
  swapLen : Word
  /-- which physical buffer is the active one: `false` for `VBUF[v][0]`, `true` for `VBUF[v][1]` -/
  act : Bool
  pending : Bool
  waveSet : Bool
  rateSet : Bool
  deriving DecidableEq, Repr

/-- The engine (R30). -/
structure Eng where
  rr : Word
  amp : F32
  deriving DecidableEq, Repr

/-- The pipeline (R31); its history buffer is memory space `HIST`. -/
structure Pipe where
  hwr : Word
  hopCnt : Word
  fill : Word
  deriving DecidableEq, Repr

/-- The window mailbox's flag `WMB.full` and the counter `WDROP` (R32); the slot is memory space `WMB`. -/
structure Wmb where
  full : Bool
  drop : Word
  deriving DecidableEq, Repr

/-- The frequency mailbox (R32). -/
structure Freq where
  value : F32
  present : Bool
  deriving DecidableEq, Repr

/-- Four control values: the shape of `CTRL_MB[0..3]` and of `CTRL_CUR[0..3]` (R32). -/
structure Controls where
  c0 : F32
  c1 : F32
  c2 : F32
  c3 : F32
  deriving DecidableEq, Repr

/-- The control mailbox (R32): slot `CTRL_MB`, flag, and the polled values `CTRL_CUR`. -/
structure Ctrl where
  mb : Controls
  present : Bool
  cur : Controls
  deriving DecidableEq, Repr

/-- The thirteen memory spaces (R49, 20_memory.md R61). -/
inductive Space where
  | ring | hist | wmb | anRe | anIm | anPhase | anWin | anTwr | anTwi | wstage | inBuf | outBuf | vbuf
  deriving DecidableEq, Repr

/-- The content of one memory space: pairs of a word index and the word there, indexes strictly rising, no pair whose
word is what an unlisted cell reads as (+0.0, 40_system_access.md R104). DEDUCED, log 8: the block has no bytes (R62),
so a cell is a word. -/
abbrev Cells := List (Nat × Word)

/-- The contents of the memories (R49), one list for each space. -/
structure Memory where
  ring : Cells
  hist : Cells
  wmb : Cells
  anRe : Cells
  anIm : Cells
  anPhase : Cells
  anWin : Cells
  anTwr : Cells
  anTwi : Cells
  wstage : Cells
  inBuf : Cells
  outBuf : Cells
  vbuf : Cells
  deriving DecidableEq, Repr

/-- The status codes of a response (30_encoding.md R85). -/
inductive Status where
  | ok | errIllegal | errOperand | errState | errAccess | errFaulted | fault
  deriving DecidableEq, Repr

/-- One response (R84): a status and the result words. -/
structure Response where
  status : Status
  results : List Word
  deriving DecidableEq, Repr

/-- Who moves next (00_scope.md R17), or the reset input (70_reset_and_hazards.md R280). DESIGN CHOICE, log 2, log 4. -/
inductive Turn where
  /-- the command agent -/
  | command
  /-- the analyzer agent -/
  | analyzer
  /-- reset is applied between two commands -/
  | reset
  /-- reset is applied while the command at the head of the port is being received or executed -/
  | resetInCommand
  deriving DecidableEq, Repr

/-- The machine's state: the block's (10_state.md R20), then four fields of the model's own. -/
structure State where
  cfg : Cfg
  lpf : Lpf
  /-- `ENV[0]`, the high envelope -/
  env0 : Env
  /-- `ENV[1]`, the low envelope -/
  env1 : Env
  ctl : Ctl
  /-- `ZD.prev` (R24) -/
  zdPrev : F32
  cd : Cd
  ct : Ct
  an : An
  /-- the voice banks (R47) -/
  voices : Vector Voice 256
  eng : Eng
  pipe : Pipe
  wmb : Wmb
  freq : Freq
  ctrl : Ctrl
  /-- `RUNNING` (R43) -/
  running : Bool
  /-- `FAULT` (R44) -/
  fault : Word
  /-- `FAULT_INFO` (R44) -/
  faultInfo : Word
  mem : Memory
  /-- the parameter `ARENA_CAP` (00_scope.md R4); no step writes it. DESIGN CHOICE, log 5. -/
  arenaCap : Nat
  /-- the words the host has sent and the command agent has not accepted (30_encoding.md R80). DESIGN CHOICE, log 1. -/
  port : List Word
  /-- the turns to come (00_scope.md R17). DESIGN CHOICE, log 2. -/
  sched : List Turn
  /-- the responses sent (30_encoding.md R84), oldest first. DESIGN CHOICE, log 3. -/
  resp : List Response
  deriving DecidableEq, Repr

/-- A voice bank of zeros (R50). -/
def Voice.reset : Voice :=
  { phase := 0, inc := 0, period := 0, actLen := 0, swapLen := 0,
    act := false, pending := false, waveSet := false, rateSet := false }

/-- No cell listed (R49, R50). -/
def Memory.empty : Memory :=
  { ring := [], hist := [], wmb := [], anRe := [], anIm := [], anPhase := [], anWin := [], anTwr := [], anTwi := [],
    wstage := [], inBuf := [], outBuf := [], vbuf := [] }

/-- The machine right after reset: every register all-zero, no memory (R50, R281); nothing sent, nothing answered, no
turn fixed. -/
def State.reset : State :=
  { cfg := { fs := 0, block := 0, win := 0, hop := 0, nv := 0, ring := 0, hist := 0, wt := 0 }
    lpf := { decay := 0, value := 0, prev := 0 }
    env0 := { rise := 0, fall := 0, value := 0 }
    env1 := { rise := 0, fall := 0, value := 0 }
    ctl := { lpfEn := false, anAuto := false }
    zdPrev := 0
    cd := { high := .off, low := .off, cycle := .off, count := 0, length := 0 }
    ct := { wr := 0, lastZc := 0, cycStart := 0, cycEnd := 0, cycLen := 0 }
    an := { k := 0, fEst := 0, busy := false, primed := false }
    voices := Vector.replicate 256 Voice.reset
    eng := { rr := 0, amp := 0 }
    pipe := { hwr := 0, hopCnt := 0, fill := 0 }
    wmb := { full := false, drop := 0 }
    freq := { value := 0, present := false }
    ctrl := { mb := { c0 := 0, c1 := 0, c2 := 0, c3 := 0 }, present := false,
              cur := { c0 := 0, c1 := 0, c2 := 0, c3 := 0 } }
    running := false
    fault := 0
    faultInfo := 0
    mem := Memory.empty
    arenaCap := Config.arenaCap
    port := []
    sched := []
    resp := [] }

/-- Why the MODEL stops with a fault. None of these is a fault of the spec: those are recorded in `FAULT` and the block
goes on (60_exceptions.md R251). Both are raised only in states that no run reaches. -/
inductive Fault where
  /-- A unit function reads or writes a memory cell that does not exist (20_memory.md R61). Raised by `loadCell` and
  `storeCell`. Safe: the hardware has no such cell, and no run gets there. Log 9. -/
  | noCell (space : Space) (index : Nat)
  /-- A unit function uses a voice at or above `CFG.NV` or 256 (10_state.md R29, R47). Raised by `voiceAt` and
  `putVoice`. Safe: the hardware has no such voice, and no run gets there. Log 10. -/
  | noVoice (v : Nat)
  deriving DecidableEq, Repr

/-- Why the model gives a command no meaning. No arm of `exec` answers so: every command is modelled. -/
inductive Refusal where
  /-- The command has no meaning yet. Raised by `exec` alone. Safe: nothing is claimed of the command. -/
  | notModelled (mnemonic : String)
  deriving DecidableEq, Repr

end Sys2Proof.Machine
end

