-- ==== Sys2Proof/Machine/Ops.lean ====
section
/-! DEFINITION. The named operations every meaning is written with: the memory cells, the pseudocode primitives of
spec/00_scope.md R13 and R14 (respond, refuse, raise), the admission of a command (30_encoding.md R92), and reset. -/

namespace Sys2Proof.Machine

/-! ## One memory space -/

/-- What a cell that is not listed reads as: +0.0, the word R104 fills every new memory with. -/
def blankCell : Word := 0

/-- The word at index `i`. -/
def cellAt : Cells → Nat → Word
  | [], _ => blankCell
  | (k, v) :: t, i => if k = i then v else cellAt t i

/-- Write `w` at index `i`, keeping the canonical form. -/
def setCell : Cells → Nat → Word → Cells
  | [], i, w => if w = blankCell then [] else [(i, w)]
  | (k, v) :: t, i, w =>
    if i < k then (if w = blankCell then (k, v) :: t else (i, w) :: (k, v) :: t)
    else if i = k then (if w = blankCell then t else (i, w) :: t)
    else (k, v) :: setCell t i w

/-- The content of a memory of `n` cells filled from a table, from index `i` on. -/
def tableCells (f : Nat → Word) : (n i : Nat) → Cells
  | 0, _ => []
  | n + 1, i => if f i = blankCell then tableCells f n (i + 1) else (i, f i) :: tableCells f n (i + 1)

/-- The canonical form: indexes strictly rising, no entry that reads as an unlisted cell. -/
def cellsWf : Cells → Bool
  | [] => true
  | (_, v) :: [] => v != blankCell
  | (k, v) :: (k2, v2) :: t => v != blankCell && decide (k < k2) && cellsWf ((k2, v2) :: t)

/-- Every listed index is below the size of the memory. -/
def cellsBelow (n : Nat) (c : Cells) : Bool := c.all (fun e => decide (e.1 < n))

/-! ## The thirteen spaces (20_memory.md R61) -/

/-- The space a space number names (R61); none above 12. -/
def spaceOf : Nat → Option Space
  | 0 => some .ring | 1 => some .hist | 2 => some .wmb | 3 => some .anRe | 4 => some .anIm | 5 => some .anPhase
  | 6 => some .anWin | 7 => some .anTwr | 8 => some .anTwi | 9 => some .wstage | 10 => some .inBuf
  | 11 => some .outBuf | 12 => some .vbuf | _ => none

/-- Every space. -/
def allSpaces : List Space :=
  [.ring, .hist, .wmb, .anRe, .anIm, .anPhase, .anWin, .anTwr, .anTwi, .wstage, .inBuf, .outBuf, .vbuf]

/-- The content of a space. -/
def Memory.cells (m : Memory) : Space → Cells
  | .ring => m.ring | .hist => m.hist | .wmb => m.wmb | .anRe => m.anRe | .anIm => m.anIm | .anPhase => m.anPhase
  | .anWin => m.anWin | .anTwr => m.anTwr | .anTwi => m.anTwi | .wstage => m.wstage | .inBuf => m.inBuf
  | .outBuf => m.outBuf | .vbuf => m.vbuf

/-- The memory with another content of one space. -/
def Memory.withCells (m : Memory) (sp : Space) (c : Cells) : Memory :=
  match sp with
  | .ring => { m with ring := c }
  | .hist => { m with hist := c }
  | .wmb => { m with wmb := c }
  | .anRe => { m with anRe := c }
  | .anIm => { m with anIm := c }
  | .anPhase => { m with anPhase := c }
  | .anWin => { m with anWin := c }
  | .anTwr => { m with anTwr := c }
  | .anTwi => { m with anTwi := c }
  | .wstage => { m with wstage := c }
  | .inBuf => { m with inBuf := c }
  | .outBuf => { m with outBuf := c }
  | .vbuf => { m with vbuf := c }

/-- Every space has the canonical form. -/
def Memory.wf (m : Memory) : Bool := allSpaces.all (fun sp => cellsWf (m.cells sp))

/-- The size in words of a space under a configuration (R61). -/
def Cfg.spaceSize (c : Cfg) : Space → Nat
  | .ring => c.ring.toNat
  | .hist => c.hist.toNat
  | .wmb => c.win.toNat
  | .anRe => c.win.toNat
  | .anIm => c.win.toNat
  | .anPhase => c.win.toNat / 2
  | .anWin => c.win.toNat
  | .anTwr => c.win.toNat / 2
  | .anTwi => c.win.toNat / 2
  | .wstage => c.wt.toNat
  | .inBuf => c.block.toNat
  | .outBuf => c.block.toNat
  | .vbuf => 2 * c.nv.toNat * c.wt.toNat

/-! ## Updates of the state, one for each part -/

def State.setCfg (s : State) (x : Cfg) : State := { s with cfg := x }
def State.setLpf (s : State) (x : Lpf) : State := { s with lpf := x }
def State.setEnv0 (s : State) (x : Env) : State := { s with env0 := x }
def State.setEnv1 (s : State) (x : Env) : State := { s with env1 := x }
def State.setCtl (s : State) (x : Ctl) : State := { s with ctl := x }
def State.setZdPrev (s : State) (x : F32) : State := { s with zdPrev := x }
def State.setCd (s : State) (x : Cd) : State := { s with cd := x }
def State.setCt (s : State) (x : Ct) : State := { s with ct := x }
def State.setAn (s : State) (x : An) : State := { s with an := x }
def State.setVoices (s : State) (x : Vector Voice 256) : State := { s with voices := x }
def State.setEng (s : State) (x : Eng) : State := { s with eng := x }
def State.setPipe (s : State) (x : Pipe) : State := { s with pipe := x }
def State.setWmb (s : State) (x : Wmb) : State := { s with wmb := x }
def State.setFreq (s : State) (x : Freq) : State := { s with freq := x }
def State.setCtrl (s : State) (x : Ctrl) : State := { s with ctrl := x }
def State.setRunning (s : State) (x : Bool) : State := { s with running := x }
def State.setFault (s : State) (code info : Word) : State := { s with fault := code, faultInfo := info }
def State.setMem (s : State) (x : Memory) : State := { s with mem := x }
def State.setPort (s : State) (x : List Word) : State := { s with port := x }
def State.setSched (s : State) (x : List Turn) : State := { s with sched := x }
def State.setResp (s : State) (x : List Response) : State := { s with resp := x }

/-- How many cells a space has now: none before INIT (R61). -/
def State.spaceSize (s : State) (sp : Space) : Nat := if s.running then s.cfg.spaceSize sp else 0

/-- `MemRead(s, i)` of 00_scope.md R13 on the state: the word at a cell. -/
def State.peek (s : State) (sp : Space) (i : Nat) : Word := cellAt (s.mem.cells sp) i

/-- `MemWrite(s, i, v)` of R13 on the state. -/
def State.poke (s : State) (sp : Space) (i : Nat) (w : Word) : State :=
  s.setMem (s.mem.withCells sp (setCell (s.mem.cells sp) i w))

/-- The bank of voice `v` (10_state.md R47); a bank that does not exist reads as reset values. -/
def State.voice (s : State) (v : Nat) : Voice := (s.voices[v]?).getD Voice.reset

/-- Write the bank of voice `v`. -/
def State.setVoice (s : State) (v : Nat) (x : Voice) : State := s.setVoices (s.voices.setIfInBounds v x)

/-- Envelope detector `u` (R23). -/
def State.env (s : State) (u : Nat) : Env := if u = 0 then s.env0 else s.env1

/-- Write envelope detector `u`. -/
def State.setEnv (s : State) (u : Nat) (x : Env) : State := if u = 0 then s.setEnv0 x else s.setEnv1 x

/-! ## Outcomes (00_scope.md R14) -/

/-- The causes of a fault of the block (60_exceptions.md R250). -/
inductive FaultCause where
  | arenaExhausted | configInvalid | windowLength | voiceNotReady | voiceIndex | analyzerNoConverge
  deriving DecidableEq, Repr

/-- The fault codes (R250). -/
def FaultCause.code : FaultCause → Word
  | .arenaExhausted => 1 | .configInvalid => 2 | .windowLength => 3 | .voiceNotReady => 4 | .voiceIndex => 5
  | .analyzerNoConverge => 6

/-- The status codes (30_encoding.md R85). -/
def Status.code : Status → Nat
  | .ok => 0 | .errIllegal => 1 | .errOperand => 2 | .errState => 3 | .errAccess => 4 | .errFaulted => 5 | .fault => 6

/-- The words of a response (R84): status in bits 31:24, `nres` in bits 23:16, then the result words. -/
def Response.words (r : Response) : List Word :=
  BitVec.ofNat 32 (r.status.code * 2 ^ 24 + r.results.length * 2 ^ 16) :: r.results

/-- How the pseudocode of a command or agent step ends before its last statement. -/
inductive Stop where
  /-- `raise`: the fault is recorded in the state that comes with it (R14) -/
  | raised
  /-- `refuse(status)` (R14) -/
  | refused (st : Status)
  /-- the model's own fault -/
  | fault (f : Fault)
  deriving DecidableEq, Repr

/-- Pseudocode (R13): statements in order on the state; what was done before a stop stands in the state that comes with
the stop. -/
abbrev M := EStateM Stop State

/-- Record a fault (R44, R250): written only while `FAULT = 0`. -/
def State.recordFault (s : State) (c : FaultCause) (info : Word) : State :=
  if s.fault = 0 then s.setFault c.code info else s

/-- TAKING A FAULT: `raise F(info)` (R14, R251). It records the cause and ends the command or step there. -/
def raiseFault {α : Type} (c : FaultCause) (info : Word) : M α :=
  fun s => .error .raised (s.recordFault c info)

/-- RETURN FROM A FAULT: there is none but reset (R253, 70_reset_and_hazards.md R280, R281). The four fields of the
model's own are not the block's and stay. -/
def State.deviceReset (s : State) : State :=
  { State.reset with arenaCap := s.arenaCap, port := s.port, sched := s.sched, resp := s.resp }

/-- `refuse(status)` (R14). -/
def refuse {α : Type} (st : Status) : M α := throw (.refused st)

/-- A check of a command: it must hold, else the command is refused with that status (R92). -/
def require (b : Bool) (st : Status) : M Unit := if b then pure () else refuse st

/-- `for i in a..a+n` (R13): `n` rounds from `i = a` on, in order. -/
def forFrom : (n a : Nat) → (Nat → M Unit) → M Unit
  | 0, _, _ => pure ()
  | n + 1, a, body => do
    body a
    forFrom n (a + 1) body

/-- A unit reads a memory cell (R13, 20_memory.md R61). -/
def loadCell (sp : Space) (i : Nat) : M Word := fun s =>
  if i < s.spaceSize sp then .ok (s.peek sp i) s else .error (.fault (.noCell sp i)) s

/-- A unit writes a memory cell (R13, R61). -/
def storeCell (sp : Space) (i : Nat) (w : Word) : M Unit := fun s =>
  if i < s.spaceSize sp then .ok () (s.poke sp i w) else .error (.fault (.noCell sp i)) s

/-- Voice `v` exists (10_state.md R29): it is below `CFG.NV`, and the bank holds 256 (R47). -/
def State.hasVoice (s : State) (v : Nat) : Bool := decide (v < s.cfg.nv.toNat) && decide (v < 256)

/-- A unit reads the registers of voice `v` (R29). -/
def voiceAt (v : Nat) : M Voice := fun s =>
  if s.hasVoice v then .ok (s.voice v) s else .error (.fault (.noVoice v)) s

/-- A unit writes the registers of voice `v` (R29). -/
def putVoice (v : Nat) (x : Voice) : M Unit := fun s =>
  if s.hasVoice v then .ok () (s.setVoice v x) else .error (.fault (.noVoice v)) s

/-! ## A command from admission to response -/

/-- Which value of `RUNNING` a command needs (30_encoding.md R92, check 3). -/
inductive RunNeed where
  | stopped | either | running
  deriving DecidableEq, Repr

/-- The need is met. -/
def RunNeed.met (n : RunNeed) (running : Bool) : Bool :=
  match n with
  | .stopped => !running
  | .either => true
  | .running => running

/-- The common admission checks 2 and 3 (R92): the fault lock, unless the command is one of the three that pass it, and
the running state. Check 1 is the decoder's. -/
def admission (passesLock : Bool) (need : RunNeed) : M Unit := do
  let s ← get
  require (passesLock || s.fault == 0) .errFaulted
  require (need.met s.running) .errState

/-- The response is sent (R17, R84). -/
def State.respond (s : State) (st : Status) (results : List Word) : State :=
  s.setResp (s.resp ++ [{ status := st, results := results }])

/-- What becomes of a command whose pseudocode, admission included, is `body` (R14): it responds ST_OK with the result
words; a refusal leaves the state as it was before the command; a raise keeps what was done and responds ST_FAULT. -/
def outcomeOf (body : M (List Word)) (s : State) : Host.Outcome State Fault Refusal :=
  match body s with
  | .ok results s' => .next (s'.respond .ok results)
  | .error .raised s' => .next (s'.respond .fault [])
  | .error (.refused st) _ => .next (s.respond st [])
  | .error (.fault f) _ => .fault f

/-- A command: admission, then its own checks and pseudocode (R92). -/
def command (passesLock : Bool) (need : RunNeed) (body : M (List Word)) (s : State) :
    Host.Outcome State Fault Refusal :=
  outcomeOf (do admission passesLock need; body) s

/-- A command that the fault lock stops and that needs `RUNNING = 1`, as most do (R92). -/
def workCommand (body : M (List Word)) (s : State) : Host.Outcome State Fault Refusal :=
  command false .running body s

end Sys2Proof.Machine
end

