-- ==== Sys2Proof/Machine/Flags.lean ====
section
/-! DEFINITION. Every flag of the block (spec/10_state.md R34): the words in which flags are read, and the functions that
decide the gates. -/

namespace Sys2Proof.Machine

/-- A bit at its place in a word. -/
def bitAt (b : Bool) (n : Nat) : Nat := if b then 2 ^ n else 0

/-- A gate as a bit: `Off` = 0, `On` = 1. -/
def Gate.isOn : Gate → Bool
  | .off => false
  | .on => true

/-- `FAULTED`, bit 1 of STATUS (R43). -/
def State.faulted (s : State) : Bool := s.fault != 0

/-- The word of `STATUS` (R43). -/
def State.statusWord (s : State) : Word :=
  u32 (bitAt s.running 0 + bitAt s.faulted 1 + bitAt s.an.busy 2 + bitAt s.wmb.full 3 + bitAt s.freq.present 4
    + bitAt s.ctrl.present 5 + bitAt s.an.primed 6)

/-- The word of `CTL` (R42). -/
def Ctl.word (c : Ctl) : Word := u32 (bitAt c.lpfEn 0 + bitAt c.anAuto 1)

/-- `CTL` from a written word (R42). -/
def Ctl.ofWord (w : Word) : Ctl := { lpfEn := w.getLsbD 0, anAuto := w.getLsbD 1 }

/-- The reserved bits 31:2 of a word for `CTL` are clear (R42). -/
def ctlReservedClear (w : Word) : Bool := w.toNat / 4 == 0

/-- The word of `CD.gates` (R46). -/
def Cd.gatesWord (c : Cd) : Word := u32 (bitAt c.high.isOn 0 + bitAt c.low.isOn 1 + bitAt c.cycle.isOn 2)

/-- The word of `V[v].flags` (R47). -/
def Voice.flagsWord (v : Voice) : Word :=
  u32 (bitAt v.act 0 + bitAt v.pending 1 + bitAt v.waveSet 2 + bitAt v.rateSet 3)

/-- The `high` gate's next state (42_cycle.md R141). -/
def highNext (g : Gate) (v he : F32) : Gate :=
  match g with
  | .off => if fgt v he then .on else .off
  | .on => if flt v he then .off else .on

/-- The `low` gate's next state (R141). -/
def lowNext (g : Gate) (v le : F32) : Gate :=
  match g with
  | .off => if flt v le then .on else .off
  | .on => if fgt v le then .off else .on

/-- The gate turned from Off to On: the events `high_rise` and `low_rise` (R141). -/
def gateRose (before after : Gate) : Bool := !before.isOn && after.isOn

/-- `GateStep(v, he, le)` (R141). -/
def gateStep (c : Cd) (v he le : F32) : Cd × Bool × Bool :=
  let h := highNext c.high v he
  let l := lowNext c.low v le
  ({ c with high := h, low := l }, gateRose c.high h, gateRose c.low l)

/-- `CycleStep(high_rise, low_rise)` (R142, R143): the `cycle` gate and the sample counter; the result is `start`. -/
def cycleStep (c : Cd) (highRise lowRise : Bool) : Cd × Bool :=
  let n := satInc c.count
  match c.cycle with
  | .off => if highRise then ({ c with cycle := .on, length := n, count := 0 }, true) else ({ c with count := n }, false)
  | .on => if lowRise then ({ c with cycle := .off, count := n }, false) else ({ c with count := n }, false)

/-- `AN_TAKE` is enabled (45_pipeline.md R229). -/
def State.takeEnabled (s : State) : Bool :=
  s.running && s.fault == 0 && s.ctl.anAuto && s.wmb.full && !s.an.busy

/-- `AN_RUN` is enabled (R230). -/
def State.runEnabled (s : State) : Bool := s.running && s.fault == 0 && s.an.busy

end Sys2Proof.Machine
end

