-- ==== Sys2Proof/Machine/Operands.lean ====
section
/-! DEFINITION. The operand forms of commands: register addresses (spec/10_state.md R40 to R48) and memory cells
(20_memory.md R61). -/

namespace Sys2Proof.Machine

/-- The registers of one voice's bank (R47). -/
inductive VoiceReg where
  | phase | inc | period | actLen | swapLen | flags
  deriving DecidableEq, Repr

/-- The mapped registers (R40 to R47). -/
inductive Reg where
  | cfgFs | cfgBlock | cfgWin | cfgHop | cfgNv | cfgRing | cfgHist | cfgWt
  | lpfDecay | env0Rise | env0Fall | env1Rise | env1Fall
  | ctl | status | fault | faultInfo | wdrop | freqValue
  | ctrlCur0 | ctrlCur1 | ctrlCur2 | ctrlCur3
  | ctrlMb0 | ctrlMb1 | ctrlMb2 | ctrlMb3
  | lpfValue | lpfPrev | env0Value | env1Value | zdPrev
  | cdGates | cdCount | cdLength
  | ctWr | ctLastZc | ctCycStart | ctCycEnd | ctCycLen
  | engRr | engAmp
  | pipeHwr | pipeHopCnt | pipeFill
  | anK | anFEst
  | voice (v : Nat) (r : VoiceReg)
  deriving DecidableEq, Repr

/-- The fixed addresses of R40 to R46, each with its register. -/
def fixedRegs : List (Nat × Reg) :=
  [(0x0000, .cfgFs), (0x0001, .cfgBlock), (0x0002, .cfgWin), (0x0003, .cfgHop), (0x0004, .cfgNv), (0x0005, .cfgRing),
   (0x0006, .cfgHist), (0x0007, .cfgWt),
   (0x0010, .lpfDecay), (0x0011, .env0Rise), (0x0012, .env0Fall), (0x0013, .env1Rise), (0x0014, .env1Fall),
   (0x0015, .ctl), (0x0020, .status), (0x0021, .fault), (0x0022, .faultInfo), (0x0023, .wdrop), (0x0024, .freqValue)]
  ++
  [(0x0028, .ctrlCur0), (0x0029, .ctrlCur1), (0x002A, .ctrlCur2), (0x002B, .ctrlCur3),
   (0x002C, .ctrlMb0), (0x002D, .ctrlMb1), (0x002E, .ctrlMb2), (0x002F, .ctrlMb3)]
  ++
  [(0x0100, .lpfValue), (0x0101, .lpfPrev), (0x0104, .env0Value), (0x0105, .env1Value), (0x0108, .zdPrev),
   (0x0110, .cdGates), (0x0111, .cdCount), (0x0112, .cdLength),
   (0x0118, .ctWr), (0x0119, .ctLastZc), (0x011A, .ctCycStart), (0x011B, .ctCycEnd), (0x011C, .ctCycLen),
   (0x0120, .engRr), (0x0121, .engAmp), (0x0128, .pipeHwr), (0x0129, .pipeHopCnt), (0x012A, .pipeFill),
   (0x0130, .anK), (0x0131, .anFEst)]

/-- The register of a voice's bank at offset `j` (R47); 6 and 7 are unmapped. -/
def voiceRegOf : Nat → Option VoiceReg
  | 0 => some .phase | 1 => some .inc | 2 => some .period | 3 => some .actLen | 4 => some .swapLen | 5 => some .flags
  | _ => none

/-- The register at an address; none for an unmapped address (R48). -/
def regOf (a : Nat) : Option Reg :=
  if 0x1000 ≤ a ∧ a < 0x1800 then (voiceRegOf ((a - 0x1000) % 8)).map (.voice ((a - 0x1000) / 8))
  else (fixedRegs.find? (fun e => e.1 == a)).map (·.2)

/-- The access column of R40 to R47. -/
inductive Access where
  /-- readable and writable -/
  | rw
  /-- writable only while `RUNNING = 0` -/
  | rwLock
  /-- read-only -/
  | ro
  deriving DecidableEq, Repr

/-- How the host may use a register (R40 to R47). -/
def Reg.access : Reg → Access
  | .cfgFs => .rwLock | .cfgBlock => .rwLock | .cfgWin => .rwLock | .cfgHop => .rwLock | .cfgNv => .rwLock
  | .cfgRing => .rwLock | .cfgHist => .rwLock | .cfgWt => .rwLock
  | .lpfDecay => .rw | .env0Rise => .rw | .env0Fall => .rw | .env1Rise => .rw | .env1Fall => .rw
  | .ctl => .rw
  | .status => .ro | .fault => .ro | .faultInfo => .ro | .wdrop => .ro | .freqValue => .ro
  | .ctrlCur0 => .ro | .ctrlCur1 => .ro | .ctrlCur2 => .ro | .ctrlCur3 => .ro
  | .ctrlMb0 => .ro | .ctrlMb1 => .ro | .ctrlMb2 => .ro | .ctrlMb3 => .ro
  | .lpfValue => .ro | .lpfPrev => .ro | .env0Value => .ro | .env1Value => .ro | .zdPrev => .ro
  | .cdGates => .ro | .cdCount => .ro | .cdLength => .ro
  | .ctWr => .ro | .ctLastZc => .ro | .ctCycStart => .ro | .ctCycEnd => .ro | .ctCycLen => .ro
  | .engRr => .ro | .engAmp => .ro
  | .pipeHwr => .ro | .pipeHopCnt => .ro | .pipeFill => .ro
  | .anK => .ro | .anFEst => .ro
  | .voice _ _ => .ro

/-- A register of a voice's bank as a word (R47). -/
def Voice.regWord (v : Voice) : VoiceReg → Word
  | .phase => v.phase | .inc => v.inc | .period => v.period | .actLen => v.actLen | .swapLen => v.swapLen
  | .flags => v.flagsWord

/-- `REG[a]` read (R40 to R47, 40_system_access.md R105). -/
def State.regWord (s : State) : Reg → Word
  | .cfgFs => s.cfg.fs | .cfgBlock => s.cfg.block | .cfgWin => s.cfg.win | .cfgHop => s.cfg.hop | .cfgNv => s.cfg.nv
  | .cfgRing => s.cfg.ring | .cfgHist => s.cfg.hist | .cfgWt => s.cfg.wt
  | .lpfDecay => s.lpf.decay | .env0Rise => s.env0.rise | .env0Fall => s.env0.fall
  | .env1Rise => s.env1.rise | .env1Fall => s.env1.fall
  | .ctl => s.ctl.word
  | .status => s.statusWord | .fault => s.fault | .faultInfo => s.faultInfo
  | .wdrop => s.wmb.drop | .freqValue => s.freq.value
  | .ctrlCur0 => s.ctrl.cur.c0 | .ctrlCur1 => s.ctrl.cur.c1 | .ctrlCur2 => s.ctrl.cur.c2 | .ctrlCur3 => s.ctrl.cur.c3
  | .ctrlMb0 => s.ctrl.mb.c0 | .ctrlMb1 => s.ctrl.mb.c1 | .ctrlMb2 => s.ctrl.mb.c2 | .ctrlMb3 => s.ctrl.mb.c3
  | .lpfValue => s.lpf.value | .lpfPrev => s.lpf.prev
  | .env0Value => s.env0.value | .env1Value => s.env1.value | .zdPrev => s.zdPrev
  | .cdGates => s.cd.gatesWord | .cdCount => s.cd.count | .cdLength => s.cd.length
  | .ctWr => s.ct.wr | .ctLastZc => s.ct.lastZc | .ctCycStart => s.ct.cycStart | .ctCycEnd => s.ct.cycEnd
  | .ctCycLen => s.ct.cycLen
  | .engRr => s.eng.rr | .engAmp => s.eng.amp
  | .pipeHwr => s.pipe.hwr | .pipeHopCnt => s.pipe.hopCnt | .pipeFill => s.pipe.fill
  | .anK => s.an.k | .anFEst => s.an.fEst
  | .voice v r => (s.voice v).regWord r

/-- `REG[a] <- data` (R106): a writable register takes the word as given; a read-only one keeps its value (WRREG is
refused before it gets here). -/
def State.putReg (s : State) (r : Reg) (w : Word) : State :=
  match r with
  | .cfgFs => s.setCfg { s.cfg with fs := w }
  | .cfgBlock => s.setCfg { s.cfg with block := w }
  | .cfgWin => s.setCfg { s.cfg with win := w }
  | .cfgHop => s.setCfg { s.cfg with hop := w }
  | .cfgNv => s.setCfg { s.cfg with nv := w }
  | .cfgRing => s.setCfg { s.cfg with ring := w }
  | .cfgHist => s.setCfg { s.cfg with hist := w }
  | .cfgWt => s.setCfg { s.cfg with wt := w }
  | .lpfDecay => s.setLpf { s.lpf with decay := w }
  | .env0Rise => s.setEnv0 { s.env0 with rise := w }
  | .env0Fall => s.setEnv0 { s.env0 with fall := w }
  | .env1Rise => s.setEnv1 { s.env1 with rise := w }
  | .env1Fall => s.setEnv1 { s.env1 with fall := w }
  | .ctl => s.setCtl (Ctl.ofWord w)
  | .status => s | .fault => s | .faultInfo => s | .wdrop => s | .freqValue => s
  | .ctrlCur0 => s | .ctrlCur1 => s | .ctrlCur2 => s | .ctrlCur3 => s
  | .ctrlMb0 => s | .ctrlMb1 => s | .ctrlMb2 => s | .ctrlMb3 => s
  | .lpfValue => s | .lpfPrev => s | .env0Value => s | .env1Value => s | .zdPrev => s
  | .cdGates => s | .cdCount => s | .cdLength => s
  | .ctWr => s | .ctLastZc => s | .ctCycStart => s | .ctCycEnd => s | .ctCycLen => s
  | .engRr => s | .engAmp => s
  | .pipeHwr => s | .pipeHopCnt => s | .pipeFill => s
  | .anK => s | .anFEst => s
  | .voice _ _ => s

/-- The operand `imm` of RDREG and WRREG: a mapped register, else the command is refused (R48). -/
def regOperand (a : Nat) : M Reg :=
  match regOf a with
  | some r => pure r
  | none => refuse .errOperand

/-- The operands `u` and `op0` of RDMEM and WRMEM: a space and an index below its size, else the command is refused
(20_memory.md R61, 40_system_access.md R107, R108). -/
def cellOperand (space : Nat) (index : Word) : M (Space × Nat) := fun s =>
  match spaceOf space with
  | some sp => if index.toNat < s.spaceSize sp then .ok (sp, index.toNat) s else .error (.refused .errOperand) s
  | none => .error (.refused .errOperand) s

/-- The host may write a cell of this space now (R61, R108): `WSTAGE`, `IN_BUF`, and `WMB` while `CTL.AN_AUTO = 0`. -/
def Ctl.hostWrites (c : Ctl) : Space → Bool
  | .wmb => !c.anAuto
  | .wstage => true
  | .inBuf => true
  | .ring => false | .hist => false | .anRe => false | .anIm => false | .anPhase => false | .anWin => false
  | .anTwr => false | .anTwi => false | .outBuf => false | .vbuf => false

end Sys2Proof.Machine
end

