-- ==== Sys2Proof/Machine/Params.lean ====
section
/-! DEFINITION. The numeric parameter functions of spec/00_scope.md R4 under the constraints of R12 (a) to (d): at the
points R12 fixes they have the value it gives, elsewhere the value of an opaque constant. Every choice of functions
that R12 allows is one choice of the opaque constants, and every choice of the constants gives functions R12 allows. -/

namespace Sys2Proof.Machine

/-- `WINCOEF(N, i)` (R12 (b)). DESIGN CHOICE, log 6: free off the points the rule fixes. -/
def winCoef (n i : Nat) : F32 :=
  if i = 0 then pzero
  else if 2 * i = n then fOne
  else if 4 ≤ n ∧ (4 * i = n ∨ 4 * i = 3 * n) then fHalf
  else Config.winFree n i

/-- `TWCOS(N, k)` (R12 (c)). DESIGN CHOICE, log 6. -/
def twCos (n k : Nat) : F32 :=
  if k = 0 then fOne
  else if 4 ≤ n ∧ 4 * k = n then pzero
  else Config.twCosFree n k

/-- `TWSIN(N, k)` (R12 (c)). DESIGN CHOICE, log 6. -/
def twSin (n k : Nat) : F32 :=
  if k = 0 then pzero
  else if 4 ≤ n ∧ 4 * k = n then fOne
  else Config.twSinFree n k

/-- `ATAN2_32(y, x)` (R12 (d)): a NaN exactly on a NaN operand, else finite and at most pi in absolute value.
DESIGN CHOICE, log 7: free within that. -/
def atan2 (y x : F32) : F32 :=
  let r := Config.atan2Free y x
  if isNaN y || isNaN x then (if isNaN r then r else qNaN)
  else (if fle (fabs r) fPi then r else pzero)

end Sys2Proof.Machine
end

