-- ==== Sys2Proof/Machine/Analyzer.lean ====
section
/-! DEFINITION. The phase-vocoder analyzer (spec/43_analyzer.md): AN.PROC and the functions the analyzer agent shares. -/

namespace Sys2Proof.Machine

/-- `AnLoad()` (R160): the window slot into the work buffer. -/
def anLoad : M Unit := do
  let s ← get
  forFrom s.cfg.win.toNat 0 (fun i => do
    let w ← loadCell .wmb i
    storeCell .anRe i w)

/-- `AnWindow()` (R161). -/
def anWindow : M Unit := do
  let s ← get
  forFrom s.cfg.win.toNat 0 (fun i => do
    let x ← loadCell .anRe i
    let w ← loadCell .anWin i
    storeCell .anRe i (fmul x w)
    storeCell .anIm i pzero)

/-- Exchange two cells of a space. -/
def swapCells (sp : Space) (i j : Nat) : M Unit := do
  let a ← loadCell sp i
  let b ← loadCell sp j
  storeCell sp i b
  storeCell sp j a

/-- The bit-reversal permutation of `AnFft()` (R162). -/
def anPermute (n bits : Nat) : M Unit :=
  forFrom n 0 (fun i => do
    let j := bitrev i bits
    if i < j then
      swapCells .anRe i j
      swapCells .anIm i j)

/-- One butterfly of `AnFft()` on cells `a` and `b` with twiddle `t` (R162), each operation rounded by itself. -/
def butterfly (a b t : Nat) : M Unit := do
  let wr ← loadCell .anTwr t
  let wi ← loadCell .anTwi t
  let br ← loadCell .anRe b
  let bi ← loadCell .anIm b
  let tr := fsub (fmul br wr) (fmul bi wi)
  let ti := fadd (fmul br wi) (fmul bi wr)
  let ur ← loadCell .anRe a
  let ui ← loadCell .anIm a
  storeCell .anRe a (fadd ur tr)
  storeCell .anIm a (fadd ui ti)
  storeCell .anRe b (fsub ur tr)
  storeCell .anIm b (fsub ui ti)

/-- Stage `st` of `AnFft()` (R162): `m = 2^st`, bases `0, m, ..., N-m`, `half` butterflies at each. -/
def fftStage (n st : Nat) : M Unit :=
  let m := 2 ^ st
  let half := m / 2
  let step := n / m
  forFrom (n / m) 0 (fun q =>
    forFrom half 0 (fun j => butterfly (q * m + j) (q * m + j + half) (j * step)))

/-- `AnFft()` (R162): permutation, then stages 1 to `B`. -/
def anFft : M Unit := do
  let s ← get
  let n := s.cfg.win.toNat
  let bits := Nat.log2 n
  anPermute n bits
  forFrom bits 1 (fun st => fftStage n st)

/-- `mag(b)` of `AnPeak()` (R163). -/
def binMagnitude (b : Nat) : M F32 := do
  let re ← loadCell .anRe b
  let im ← loadCell .anIm b
  pure (fadd (fmul re re) (fmul im im))

/-- The peak search of `AnPeak()` over `n` bins from `b` on, with the best bin so far (R163): the comparison is strict. -/
def peakSearch : (n b k : Nat) → (best : F32) → M Nat
  | 0, _, k, _ => pure k
  | n + 1, b, k, best => do
    let m ← binMagnitude b
    if fgt m best then peakSearch n (b + 1) b m else peakSearch n (b + 1) k best

/-- What `AnPeak()` returns (R163). -/
structure Peak where
  k : Nat
  prevPhase : F32
  curPhase : F32
  deriving DecidableEq, Repr

/-- `AnPeak()` (R163): the bins scanned are `0 .. N/2-1`; every phase is stored. -/
def anPeak : M Peak := do
  let s ← get
  let half := s.cfg.win.toNat / 2
  let best ← binMagnitude 0
  let k ← peakSearch (half - 1) 1 0 best
  let prevPhase ← loadCell .anPhase k
  forFrom half 0 (fun b => do
    let im ← loadCell .anIm b
    let re ← loadCell .anRe b
    storeCell .anPhase b (atan2 im re))
  modify (fun s => s.setAn { s.an with k := u32 k })
  let curPhase ← loadCell .anPhase k
  pure { k := k, prevPhase := prevPhase, curPhase := curPhase }

/-- The coarse estimate of bin `k` (R164). -/
def coarseEstimate (c : Cfg) (k : Nat) : F32 :=
  fmul (fdiv (fadd (u2f (u32 k)) fHalf) (u2f c.win)) c.fs

/-- `AnCoarse(k)` (R164). -/
def anCoarse (k : Nat) : M F32 := do
  let s ← get
  let fEst := coarseEstimate s.cfg k
  set (s.setAn { s.an with fEst := fEst })
  pure fEst

/-- `dt` of the refinement (R165). -/
def hopTime (c : Cfg) : F32 := fdiv (fmul twoPi (u2f c.hop)) c.fs

/-- `ITER_MAX` (R165). -/
def iterMax (c : Cfg) : Nat := c.hop.toNat + 8

/-- The refinement loop (R165) with `n` rounds left, the accumulated `p` and the previous candidate, if any: the
candidate nearer to the estimate when one exceeds it (a tie goes to the lower one), none when the rounds run out. -/
def refineLoop (dp dt fEst : F32) : (n : Nat) → (p : F32) → (prev : Option F32) → Option F32
  | 0, _, _ => none
  | n + 1, p, prev =>
    let f := fdiv (fadd dp p) dt
    if fgt f fEst then
      match prev with
      | none => some f
      | some fPrev => if flt (fabs (fsub f fEst)) (fabs (fsub fPrev fEst)) then some f else some fPrev
    else refineLoop dp dt fEst n (fadd p twoPi) (some f)

/-- The refined frequency for a peak under a configuration (R165), none when the loop does not converge. -/
def refined (c : Cfg) (pk : Peak) (fEst : F32) : Option F32 :=
  refineLoop (fsub pk.curPhase pk.prevPhase) (hopTime c) fEst (iterMax c) pzero none

/-- `AnRefine(k, prev_phase, cur_phase, f_est)` (R165, R166). -/
def anRefine (pk : Peak) (fEst : F32) : M F32 := do
  let s ← get
  match refined s.cfg pk fEst with
  | some f => pure f
  | none => raiseFault .analyzerNoConverge (u32 pk.k)

/-- `AnRun()` (R167). -/
def anRun : M F32 := do
  anWindow
  anFft
  let pk ← anPeak
  let fEst ← anCoarse pk.k
  anRefine pk fEst

/-- `AN.PROC len` (R168). -/
def execAnProc (len : Word) (s : State) : Host.Outcome State Fault Refusal :=
  workCommand (do
    let s ← get
    require (!s.ctl.anAuto && !s.an.busy) .errState
    if len != s.cfg.win then raiseFault .windowLength len
    anLoad
    let f ← anRun
    pure [f]) s

end Sys2Proof.Machine
end

