-- ==== Sys2Proof/Machine/Filters.lean ====
section
/-! DEFINITION. Single-sample filters (spec/41_filters.md): ENV.PROC, LPF.PROC, ZD.PROC. -/

namespace Sys2Proof.Machine

/-- The envelope after a sample (R120): `rate` is `rise` above the envelope, `fall` otherwise. -/
def Env.next (e : Env) (x : F32) : Env :=
  let rate := if fgt x e.value then e.rise else e.fall
  let d := fsub x e.value
  { e with value := fadd e.value (fmul rate d) }

/-- `EnvProcess(u, x)` (R120). -/
def envProcess (u : Nat) (x : F32) : M F32 := do
  let s ← get
  let e := (s.env u).next x
  set (s.setEnv u e)
  pure e.value

/-- `ENV.PROC inst, x` (R120). -/
def execEnvProc (inst : Nat) (x : F32) (s : State) : Host.Outcome State Fault Refusal :=
  workCommand (do
    require (decide (inst ≤ 1)) .errOperand
    let y ← envProcess inst x
    pure [y]) s

/-- The filter after a sample (R121), each operation rounded by itself in the order of the rule. -/
def Lpf.next (f : Lpf) (x : F32) : Lpf :=
  let t1 := fadd x f.prev
  let t2 := fmul fHalf t1
  let t3 := fsub t2 f.value
  let t4 := fmul f.decay t3
  { f with value := fadd f.value t4, prev := x }

/-- `LpfProcess(x)` (R121). -/
def lpfProcess (x : F32) : M F32 := do
  let s ← get
  let f := s.lpf.next x
  set (s.setLpf f)
  pure f.value

/-- `LPF.PROC x` (R121). -/
def execLpfProc (x : F32) (s : State) : Host.Outcome State Fault Refusal :=
  workCommand (do
    let y ← lpfProcess x
    pure [y]) s

/-- The zero detector's decision (R122): the rounded product of the sample and the previous one is at most zero. -/
def crossesZero (x prev : F32) : Bool := fle (fmul x prev) pzero

/-- `ZdProcess(x)` (R122). -/
def zdProcess (x : F32) : M Bool := do
  let s ← get
  set (s.setZdPrev x)
  pure (crossesZero x s.zdPrev)

/-- `ZD.PROC x` (R122). -/
def execZdProc (x : F32) (s : State) : Host.Outcome State Fault Refusal :=
  workCommand (do
    let r ← zdProcess x
    pure [boolWord r]) s

end Sys2Proof.Machine
end

