-- ==== Sys2Proof/Machine/Cycle.lean ====
section
/-! DEFINITION. Pitch-period detection (spec/42_cycle.md): CD.PROC, CT.PROC. -/

namespace Sys2Proof.Machine

/-- `CycleInfo` (R140, 00_scope.md R16). -/
structure CycleInfo where
  length : Word
  start : Bool
  deriving DecidableEq, Repr

/-- The record `Cycle` (R147). -/
structure Cycle where
  start : Word
  stop : Word
  length : Word
  fresh : Bool
  deriving DecidableEq, Repr

/-- `CdProcess(x)` (R140): the optional filter, both envelopes, the gates, the counter. -/
def cdProcess (x : F32) : M CycleInfo := do
  let s ← get
  let v ← if s.ctl.lpfEn then lpfProcess x else pure x
  let he ← envProcess 0 v
  let le ← envProcess 1 v
  let s ← get
  let (gates, highRise, lowRise) := gateStep s.cd v he le
  let (cd, start) := cycleStep gates highRise lowRise
  set (s.setCd cd)
  pure { length := cd.length, start := start }

/-- `CD.PROC x` (R144): the length first, then `start`. -/
def execCdProc (x : F32) (s : State) : Host.Outcome State Fault Refusal :=
  workCommand (do
    let info ← cdProcess x
    pure [info.length, boolWord info.start]) s

/-- The cycle a start assigns (R145): from the previous end to the last zero crossing. -/
def Ct.assign (c : Ct) (cap : Word) : Ct :=
  { c with cycStart := c.cycEnd, cycEnd := c.lastZc, cycLen := subMod c.lastZc c.cycEnd cap }

/-- `CtProcess(x)` (R145): store the raw sample, run the zero detector, run the cycle detector, assign. -/
def ctProcess (x : F32) : M Cycle := do
  let s ← get
  let idx := s.ct.wr
  storeCell .ring idx.toNat x
  modify (fun s => s.setCt { s.ct with wr := incMod idx s.cfg.ring })
  let zc ← zdProcess x
  if zc then modify (fun s => s.setCt { s.ct with lastZc := idx })
  let info ← cdProcess x
  if info.start then modify (fun s => s.setCt (s.ct.assign s.cfg.ring))
  let s ← get
  pure { start := s.ct.cycStart, stop := s.ct.cycEnd, length := s.ct.cycLen, fresh := info.start }

/-- `CT.PROC x` (R146): start, end, length, fresh. -/
def execCtProc (x : F32) (s : State) : Host.Outcome State Fault Refusal :=
  workCommand (do
    let c ← ctProcess x
    pure [c.start, c.stop, c.length, boolWord c.fresh]) s

end Sys2Proof.Machine
end

