-- ==== Sys2Proof/Machine/Voices.lean ====
section
/-! DEFINITION. Wavetable voices and the engine (spec/44_voice_engine.md): V.SETRATE, V.SETWAVE, V.NEXT, ENG.PROC. -/

namespace Sys2Proof.Machine

/-- The increment of a period: `1/period` (R190). -/
def incOf (period : Word) : F32 := fdiv fOne (u2f period)

/-- A voice after `VoiceSetRate` (R190). -/
def Voice.withRate (v : Voice) (p : Word) : Voice := { v with period := p, inc := incOf p, rateSet := true }

/-- `VoiceSetRate(v, p)` (R190). -/
def voiceSetRate (v : Nat) (p : Word) : M Unit := do
  let x ← voiceAt v
  putVoice v (x.withRate p)

/-- The check of the operand `u` of the voice commands: `u < NV` (R191, R192, R194). -/
def requireVoice (v : Nat) : M Unit := do
  let s ← get
  require (decide (v < s.cfg.nv.toNat)) .errOperand

/-- `V.SETRATE v, period` (R191). -/
def execVSetRate (v : Nat) (period : Word) (s : State) : Host.Outcome State Fault Refusal :=
  workCommand (do
    requireVoice v
    require (decide (1 ≤ period.toNat)) .errOperand
    voiceSetRate v period
    pure []) s

/-- A voice after `VoiceSetWaveform` (R192). -/
def Voice.withWave (v : Voice) (len : Word) : Voice := { v with swapLen := len, pending := true, waveSet := true }

/-- `VoiceSetWaveform(v, len)` (R192): the first `len` cells of `WSTAGE` into the buffer that is not active. -/
def voiceSetWaveform (v : Nat) (len : Word) : M Unit := do
  let x ← voiceAt v
  forFrom len.toNat 0 (fun i => do
    let w ← loadCell .wstage i
    let s ← get
    storeCell .vbuf (vbufIndex s.cfg.wt.toNat v (!x.act) i) w)
  putVoice v (x.withWave len)

/-- `V.SETWAVE v, len` (R192). -/
def execVSetWave (v : Nat) (len : Word) (s : State) : Host.Outcome State Fault Refusal :=
  workCommand (do
    requireVoice v
    let s ← get
    require (decide (1 ≤ len.toNat) && decide (len.toNat ≤ s.cfg.wt.toNat)) .errOperand
    voiceSetWaveform v len
    pure []) s

/-- The interpolation position of a voice (R193). -/
def Voice.position (v : Voice) : F32 := fmul v.phase (u2f v.actLen)

/-- The interpolation between two neighbouring samples (R193). -/
def interpolate (frac a b : F32) : F32 := fadd a (fmul frac (fsub b a))

/-- The commit of a pending swap (R193). -/
def Voice.commit (v : Voice) : Voice :=
  { v with actLen := v.swapLen, inc := incOf v.period, act := !v.act, pending := false }

/-- The phase advance of a voice, with the wrap and, only then, the commit (R193). -/
def Voice.advance (v : Voice) : Voice :=
  let sum := fadd v.phase v.inc
  if fge sum fOne then
    let w := { v with phase := fsub sum fOne }
    if w.pending then w.commit else w
  else { v with phase := sum }

/-- `VoiceNext(v)` (R193). -/
def voiceNext (v : Nat) : M F32 := do
  let x ← voiceAt v
  if !x.waveSet || !x.rateSet then raiseFault .voiceNotReady (u32 v)
  match floorU x.position x.actLen with
  | none => raiseFault .voiceIndex (u32 v)
  | some i0 =>
    let frac := fsub x.position (u2f (u32 i0))
    let i1 := (i0 + 1) % x.actLen.toNat
    let s ← get
    let a ← loadCell .vbuf (vbufIndex s.cfg.wt.toNat v x.act i0)
    let b ← loadCell .vbuf (vbufIndex s.cfg.wt.toNat v x.act i1)
    putVoice v x.advance
    pure (interpolate frac a b)

/-- `V.NEXT v` (R194). -/
def execVNext (v : Nat) (s : State) : Host.Outcome State Fault Refusal :=
  workCommand (do
    requireVoice v
    let y ← voiceNext v
    pure [y]) s

/-- The mix of `n` voices from voice `i` on, added to `acc` (R196). -/
def mixVoices (amp : F32) : (n i : Nat) → (acc : F32) → M F32
  | 0, _, acc => pure acc
  | n + 1, i, acc => do
    let y ← voiceNext i
    mixVoices amp n (i + 1) (fadd acc (fmul y amp))

/-- The round-robin assignment of a fresh period (R196); a degenerate one is ignored (60_exceptions.md R257). -/
def assignPeriod (c : Cycle) : M Unit := do
  if c.fresh && c.length != 0 then
    let s ← get
    voiceSetRate s.eng.rr.toNat c.length
    modify (fun s => s.setEng { s.eng with rr := incMod s.eng.rr s.cfg.nv })

/-- `EngProcess(x)` (R196). -/
def engProcess (x : F32) : M F32 := do
  let c ← ctProcess x
  assignPeriod c
  let s ← get
  mixVoices s.eng.amp s.cfg.nv.toNat 0 pzero

/-- `ENG.PROC x` (R197). -/
def execEngProc (x : F32) (s : State) : Host.Outcome State Fault Refusal :=
  workCommand (do
    let y ← engProcess x
    pure [y]) s

end Sys2Proof.Machine
end

