-- ==== Sys2Proof/Machine/Pipeline.lean ====
section
/-! DEFINITION. The pipeline (spec/45_pipeline.md): PIPE.SMP, PIPE.BLK, CTICK, FPOLL and the two steps of the analyzer
agent. -/

namespace Sys2Proof.Machine

/-- `HistoryWrite(x)` (R221). -/
def historyWrite (x : F32) : M Unit := do
  let s ← get
  storeCell .hist s.pipe.hwr.toNat x
  modify (fun s => s.setPipe
    { hwr := incMod s.pipe.hwr s.cfg.hist
      fill := u32 (min (s.pipe.fill.toNat + 1) s.cfg.win.toNat)
      hopCnt := s.pipe.hopCnt + 1 })

/-- `PublishWindow()` (R222): copy the window, count an overwritten one, set the flag. -/
def publishWindow : M Unit := do
  let s ← get
  if s.ctl.anAuto && s.pipe.fill == s.cfg.win then
    let n := s.cfg.win.toNat
    forFrom n 0 (fun i => do
      let w ← loadCell .hist (histIndex s.pipe.hwr.toNat s.cfg.hist.toNat n i)
      storeCell .wmb i w)
    modify (fun s => s.setWmb { full := true, drop := if s.wmb.full then satInc s.wmb.drop else s.wmb.drop })

/-- `SampleStep(x)` (R220). -/
def sampleStep (x : F32) : M F32 := do
  historyWrite x
  let s ← get
  if s.pipe.hopCnt == s.cfg.hop then
    set (s.setPipe { s.pipe with hopCnt := 0 })
    publishWindow
  engProcess x

/-- `PIPE.SMP x` (R223). -/
def execPipeSmp (x : F32) (s : State) : Host.Outcome State Fault Refusal :=
  workCommand (do
    let y ← sampleStep x
    pure [y]) s

/-- The control mailbox after `ControlPoll()` (R226). -/
def Ctrl.polled (c : Ctrl) : Ctrl := if c.present then { c with cur := c.mb, present := false } else c

/-- `ControlPoll()` (R226). -/
def controlPoll : M Unit := modify (fun s => s.setCtrl s.ctrl.polled)

/-- One sample of a block: `OUT_BUF[i] <- SampleStep(IN_BUF[i])` (R224). -/
def blockSample (i : Nat) : M Unit := do
  let x ← loadCell .inBuf i
  let y ← sampleStep x
  storeCell .outBuf i y

/-- `PIPE.BLK` (R224). -/
def execPipeBlk (s : State) : Host.Outcome State Fault Refusal :=
  workCommand (do
    controlPoll
    let s ← get
    forFrom s.cfg.block.toNat 0 blockSample
    pure []) s

/-- `CTICK c0, c1, c2, c3` (R225). -/
def execCtick (c0 c1 c2 c3 : F32) (s : State) : Host.Outcome State Fault Refusal :=
  workCommand (do
    modify (fun s => s.setCtrl { s.ctrl with mb := { c0 := c0, c1 := c1, c2 := c2, c3 := c3 }, present := true })
    pure []) s

/-- `FPOLL` (R228): the present flag, then the estimate or +0.0. -/
def execFpoll (s : State) : Host.Outcome State Fault Refusal :=
  workCommand (do
    let s ← get
    if s.freq.present then
      set (s.setFreq { s.freq with present := false })
      pure [1, s.freq.value]
    else pure [0, pzero]) s

/-! ## The analyzer agent -/

/-- The effect of `AN_TAKE` (R229). -/
def anTake : M Unit := do
  anLoad
  modify (fun s => (s.setWmb { s.wmb with full := false }).setAn { s.an with busy := true })

/-- The analyzer registers and the frequency mailbox when an analysis has ended with the estimate `f` (R230): the first
result after INIT is discarded. -/
def State.published (s : State) (f : F32) : State :=
  if s.an.primed then (s.setFreq { value := f, present := true }).setAn { s.an with busy := false }
  else s.setAn { s.an with primed := true, busy := false }

/-- The effect of `AN_RUN` (R230). -/
def anFinish : M Unit := do
  let f ← anRun
  modify (fun s => s.published f)

/-- What becomes of an agent step (00_scope.md R14): a raise keeps what was done, and there is no response. No agent
step refuses. -/
def agentOutcome (body : M Unit) (s : State) : Host.Outcome State Fault Refusal :=
  match body s with
  | .ok _ s' => .next s'
  | .error .raised s' => .next s'
  | .error (.refused _) _ => .next s
  | .error (.fault f) _ => .fault f

end Sys2Proof.Machine
end

