-- ==== Sys2Proof/Machine/System.lean ====
section
/-! DEFINITION. System and access commands (spec/40_system_access.md): NOP, INIT, RDREG, WRREG, RDMEM, WRMEM. -/

namespace Sys2Proof.Machine

/-- `NOP` (R100): allowed before INIT and while a fault is recorded; it does nothing. -/
def execNop (s : State) : Host.Outcome State Fault Refusal :=
  command true .either (pure []) s

/-- The largest size a configuration may ask for, 2^24 (R102). -/
def maxSize : Nat := 2 ^ 24

/-- A size of the configuration is in its legal range `1 .. 2^24` (R40, R102). -/
def sizeOk (w : Word) : Bool := decide (1 ≤ w.toNat) && decide (w.toNat ≤ maxSize)

/-- The nine checks of the configuration in order (R102). -/
def configChecks (c : Cfg) : List Bool :=
  [fgt c.fs pzero && !isInf c.fs,
   sizeOk c.block,
   isPow2 c.win.toNat && decide (2 ≤ c.win.toNat) && decide (c.win.toNat ≤ maxSize),
   sizeOk c.hop,
   decide (1 ≤ c.nv.toNat) && decide (c.nv.toNat ≤ 256),
   sizeOk c.ring,
   sizeOk c.hist,
   sizeOk c.wt,
   decide (c.win.toNat + c.hop.toNat ≤ c.hist.toNat)]

/-- The number, from `n` on, of the first check that fails; none when all hold (R102). -/
def firstFailing : (n : Nat) → List Bool → Option Nat
  | _, [] => none
  | n, b :: bs => if b then firstFailing (n + 1) bs else some n

/-- The configuration passes the nine checks (R102). -/
def Cfg.valid (c : Cfg) : Bool := (configChecks c).all id

/-- `TOTAL`, the words the configuration asks for, with no wrap (R103, 20_memory.md R61). -/
def Cfg.total (c : Cfg) : Nat :=
  c.ring.toNat + c.hist.toNat + 5 * c.win.toNat + c.win.toNat / 2 + c.wt.toNat * (2 * c.nv.toNat + 1) + 2 * c.block.toNat

/-- The memories INIT creates: the three tables, every other cell +0.0 (R104). -/
def initialMemory (n : Nat) : Memory :=
  { Memory.empty with
    anWin := tableCells (winCoef n) n 0
    anTwr := tableCells (twCos n) (n / 2) 0
    anTwi := tableCells (fun k => fsub pzero (twSin n k)) (n / 2) 0 }

/-- The voice banks INIT leaves: `V[v].act_len <- CFG.WT` for every voice below `CFG.NV` (R104). -/
def initialVoices (c : Cfg) (vs : Vector Voice 256) : Vector Voice 256 :=
  vs.mapIdx (fun v x => if v < c.nv.toNat then { x with actLen := c.wt } else x)

/-- The effects of a successful INIT (R104), `RUNNING <- 1` included (R101). -/
def State.initialised (s : State) : State :=
  (((s.setMem (initialMemory s.cfg.win.toNat)).setVoices (initialVoices s.cfg s.voices)).setEng
    { s.eng with amp := fdiv fOne (u2f s.cfg.nv) }).setRunning true

/-- `INIT` (R101): validate (R102), check the capacity (R103), create and fill (R104). -/
def execInit (s : State) : Host.Outcome State Fault Refusal :=
  command false .stopped (do
    let s ← get
    match firstFailing 1 (configChecks s.cfg) with
    | some n => raiseFault .configInvalid (u32 n)
    | none =>
      if s.arenaCap < s.cfg.total then raiseFault .arenaExhausted (u32 (min s.cfg.total (2 ^ 32 - 1)))
      else
        set s.initialised
        pure []) s

/-- `RDREG reg` (R105): allowed before INIT and while a fault is recorded; no side effect. -/
def execRdreg (reg : Nat) (s : State) : Host.Outcome State Fault Refusal :=
  command true .either (do
    let r ← regOperand reg
    let s ← get
    pure [s.regWord r]) s

/-- `WRREG reg, data` (R106): the address mapped, not read-only, not locked, no reserved bit of CTL; then the word is
stored as given. -/
def execWrreg (reg : Nat) (data : Word) (s : State) : Host.Outcome State Fault Refusal :=
  command false .either (do
    let r ← regOperand reg
    let s ← get
    require (r.access != .ro) .errAccess
    require (!(r.access == .rwLock && s.running)) .errAccess
    require (!(r == .ctl) || ctlReservedClear data) .errOperand
    set (s.putReg r data)
    pure []) s

/-- `RDMEM space, index` (R107): allowed while a fault is recorded; no side effect. -/
def execRdmem (space : Nat) (index : Word) (s : State) : Host.Outcome State Fault Refusal :=
  command true .running (do
    let (sp, i) ← cellOperand space index
    let w ← loadCell sp i
    pure [w]) s

/-- `WRMEM space, index, data` (R108). -/
def execWrmem (space : Nat) (index data : Word) (s : State) : Host.Outcome State Fault Refusal :=
  workCommand (do
    let (sp, i) ← cellOperand space index
    let s ← get
    require (s.ctl.hostWrites sp) .errAccess
    storeCell sp i data
    pure []) s

end Sys2Proof.Machine
end

