-- ==== Sys2Proof/Machine/Dispatch.lean ====
section
/-! DEFINITION. One arm per command: the meaning it calls. -/

namespace Sys2Proof.Machine

def exec (i : Instr) (s : State) : Host.Outcome State Fault Refusal :=
  match i with
  | .nop => Sys2Proof.Machine.execNop s
  | .init => Sys2Proof.Machine.execInit s
  | .rdreg reg => Sys2Proof.Machine.execRdreg reg s
  | .wrreg reg data => Sys2Proof.Machine.execWrreg reg data s
  | .rdmem space index => Sys2Proof.Machine.execRdmem space index s
  | .wrmem space index data => Sys2Proof.Machine.execWrmem space index data s
  | .envProc inst x => Sys2Proof.Machine.execEnvProc inst x s
  | .lpfProc x => Sys2Proof.Machine.execLpfProc x s
  | .zdProc x => Sys2Proof.Machine.execZdProc x s
  | .cdProc x => Sys2Proof.Machine.execCdProc x s
  | .ctProc x => Sys2Proof.Machine.execCtProc x s
  | .anProc len => Sys2Proof.Machine.execAnProc len s
  | .vSetRate v period => Sys2Proof.Machine.execVSetRate v period s
  | .vSetWave v len => Sys2Proof.Machine.execVSetWave v len s
  | .vNext v => Sys2Proof.Machine.execVNext v s
  | .engProc x => Sys2Proof.Machine.execEngProc x s
  | .pipeSmp x => Sys2Proof.Machine.execPipeSmp x s
  | .pipeBlk => Sys2Proof.Machine.execPipeBlk s
  | .ctick c0 c1 c2 c3 => Sys2Proof.Machine.execCtick c0 c1 c2 c3 s
  | .fpoll => Sys2Proof.Machine.execFpoll s

end Sys2Proof.Machine
end

