-- ==== Sys2Proof/Machine/Turns.lean ====
section
/-! DEFINITION. What each turn of the schedule does (spec/00_scope.md R17), and how a command is fetched from the port
(30_encoding.md R80, R87, R88). -/

namespace Sys2Proof.Machine

/-- The analyzer agent's turn: whichever of its two steps is enabled (45_pipeline.md R229, R230); with none enabled
nothing happens. DESIGN CHOICE, log 2. -/
def analyzerTurn (s : State) : Host.Outcome State Fault Refusal :=
  if s.runEnabled then agentOutcome anFinish s
  else if s.takeEnabled then agentOutcome anTake s
  else .next s

/-- The command agent's turn: accept the words of the command at the head of the port and execute it (R80); an illegal
command word is answered ST_ERR_ILLEGAL (R87). While the words of a command have not all arrived the command agent has
no step, and the turn goes to the analyzer agent. DESIGN CHOICE, log 2; DEDUCED, log 17. -/
def commandTurn (s : State) : Host.Outcome State Fault Refusal :=
  match decode s.port with
  | .command i rest => exec i (s.setPort rest)
  | .illegal _ rest => .next ((s.setPort rest).respond .errIllegal [])
  | .incomplete => analyzerTurn s

/-- The port after reset in the middle of a command (70_reset_and_hazards.md R280): the words of that command that have
arrived are gone. DESIGN CHOICE, log 4. -/
def abandonCommand : List Word → List Word
  | [] => []
  | w :: ws => (w :: ws).drop (commandLength w)

/-- One turn of the schedule; with none fixed the command agent moves. DESIGN CHOICE, log 2. -/
def takeTurn (s : State) : Host.Outcome State Fault Refusal :=
  match s.sched with
  | [] => commandTurn s
  | .command :: rest => commandTurn (s.setSched rest)
  | .analyzer :: rest => analyzerTurn (s.setSched rest)
  | .reset :: rest => .next (s.setSched rest).deviceReset
  | .resetInCommand :: rest => .next ((s.setSched rest).setPort (abandonCommand s.port)).deviceReset

/-- The words placed at the head of the port, and the command agent's turn next. -/
def State.fetchNext (s : State) (ws : List Word) : State :=
  (s.setPort (ws ++ s.port)).setSched (.command :: s.sched)

end Sys2Proof.Machine
end

