-- ==== Sys2Proof/Machine/Step.lean ====
section
/-! DEFINITION. The step of the machine, and where an instruction is put for the next step to run it. -/

namespace Sys2Proof.Machine

/-- One atomic step of one agent, or a reset (spec/00_scope.md R17, 20_memory.md R66). -/
def step (s : State) : Host.Outcome State Fault Refusal := takeTurn s

/-- The state whose next step fetches and runs the command held in the low `nbits` bits of `w`: its words stand at the
head of the port and the command agent moves next (30_encoding.md R80). Log 1. -/
def State.withFetchWord (s : State) (nbits w : Nat) : State := s.fetchNext (commandWords nbits w)

end Sys2Proof.Machine
end

