-- ==== Sys2Proof/Machine/Assembler.lean ====
section
/-! DEFINITION. The pseudo-instructions of spec/30_encoding.md R90: what the assembler writes for each. The block never
sees them; each expands to commands. -/

namespace Sys2Proof.Machine

/-- `CONFIG fs, block, win, hop, nv, ring, hist, wt` (R90): the document's `init(config)`. -/
def pseudoConfig (fs : F32) (block win hop nv ring hist wt : Word) : List Instr :=
  [.wrreg 0x0000 fs, .wrreg 0x0001 block, .wrreg 0x0002 win, .wrreg 0x0003 hop, .wrreg 0x0004 nv, .wrreg 0x0005 ring,
   .wrreg 0x0006 hist, .wrreg 0x0007 wt, .init]

/-- `d` is the binary32 number nearest to `1 - exp(-2*pi*fc/fs)` (41_filters.md R123): no finite number lies nearer. The
block computes no exponential; the host or the assembler does. -/
def IsCutoffDecay (fc fs : ℝ) (d : F32) : Prop :=
  isFinite d = true ∧ ∀ e : F32, isFinite e = true →
    |(fUnits d : ℝ) - 2 ^ 149 * (1 - Real.exp (-2 * Real.pi * fc / fs))|
      ≤ |(fUnits e : ℝ) - 2 ^ 149 * (1 - Real.exp (-2 * Real.pi * fc / fs))|

/-- `LPF.SETCUTOFF fc, fs` (R90) once the assembler has found `d` (see `IsCutoffDecay`). -/
def pseudoSetCutoff (d : F32) : List Instr := [.wrreg 0x0010 d]

/-- `ENV.SETRATES rise, fall` (R90): the mirrored pair of 41_filters.md R120. -/
def pseudoSetRates (rise fall : F32) : List Instr :=
  [.wrreg 0x0011 rise, .wrreg 0x0012 fall, .wrreg 0x0013 fall, .wrreg 0x0014 rise]

/-- `WRMEM space, i, w` for the words of a list, from index `i` on. -/
def storeWords (space : Nat) : (i : Nat) → List Word → List Instr
  | _, [] => []
  | i, w :: ws => .wrmem space (BitVec.ofNat 32 i) w :: storeWords space (i + 1) ws

/-- `V.LOADWAVE v, s0, s1, ...` (R90): the document's `set_waveform(samples, len)`. -/
def pseudoLoadWave (v : Nat) (samples : List Word) : List Instr :=
  storeWords 9 0 samples ++ [.vSetWave v (BitVec.ofNat 32 samples.length)]

/-- `PIPE.BLOCK x0, x1, ...` (R90): the document's `process_block(in) -> out`. -/
def pseudoBlock (samples : List Word) : List Instr :=
  storeWords 10 0 samples ++ [.pipeBlk]
    ++ (List.range samples.length).map (fun i => .rdmem 11 (BitVec.ofNat 32 i))

end Sys2Proof.Machine
end

