-- ==== Sys2Proof/Safety.lean ====
section
/-! DEFINITION. What a good state and a good run of the block are, in the terms the statements use. -/

namespace Sys2Proof.Machine

/-! ## When a command is admitted, and when a run is over -/

/-- The block does its work: `RUNNING = 1` and no fault is recorded (spec/30_encoding.md R92). -/
def State.ready (s : State) : Prop := s.running = true ∧ s.fault = 0

/-- The command agent moves next (00_scope.md R17). -/
def State.commandNext (s : State) : Prop := s.sched = [] ∨ s.sched.head? = some .command

/-- The next turn is a reset (70_reset_and_hazards.md R280). -/
def State.resetNext (s : State) : Prop := s.sched.head? = some .reset ∨ s.sched.head? = some .resetInCommand

/-- No step of the analyzer agent is enabled (45_pipeline.md R229, R230). -/
def State.agentIdle (s : State) : Prop := s.runEnabled = false ∧ s.takeEnabled = false

/-- A run is over (70_reset_and_hazards.md R295): every command is answered and the analyzer agent has no step. -/
def State.quiescent (s : State) : Prop := s.port = [] ∧ s.agentIdle

/-- A run has ended well (R295): it is over and no fault is recorded. -/
def State.endedWell (s : State) : Prop := s.quiescent ∧ s.fault = 0

/-- `t` is `s` but for the four fields that are not the block's. -/
def State.sameBlock (s t : State) : Prop :=
  t = (((s.setPort t.port).setSched t.sched).setResp t.resp)

/-- The analyzer agent has the next turn: the schedule says so, or the command agent, whose turn it is, waits for more
words (logs 2 and 17). -/
def State.analyzerNext (s : State) : Prop :=
  s.sched.head? = some .analyzer ∨ s.commandNext ∧ decode s.port = .incomplete

/-- The state in which the turn that is due acts, with `rest` left on the port. -/
def State.endTurn (s : State) (rest : List Word) : State := (s.setSched s.sched.tail).setPort rest

/-- No cell of any memory differs. -/
def State.sameMemory (s t : State) : Prop := ∀ sp i, t.peek sp i = s.peek sp i

/-- No cell of any memory differs but those of which `p` holds. -/
def State.sameMemoryBut (s t : State) (p : Space → Nat → Prop) : Prop :=
  ∀ sp i, ¬ p sp i → t.peek sp i = s.peek sp i

/-- No register differs but those of which `p` holds (10_state.md R40 to R47). -/
def State.sameRegistersBut (s t : State) (p : Reg → Prop) : Prop := ∀ r, ¬ p r → t.regWord r = s.regWord r

/-- The outcome of a command: it sent one response more. -/
def State.answered (s t : State) (st : Status) (results : List Word) : Prop :=
  t.resp = s.resp ++ [{ status := st, results := results }]

/-- The number of result words of each command (30_encoding.md R86, column results). -/
def resultCount : Instr → Nat
  | .nop => 0 | .init => 0 | .rdreg _ => 1 | .wrreg _ _ => 0 | .rdmem _ _ => 1 | .wrmem _ _ _ => 0
  | .envProc _ _ => 1 | .lpfProc _ => 1 | .zdProc _ => 1 | .cdProc _ => 2 | .ctProc _ => 4 | .anProc _ => 1
  | .vSetRate _ _ => 0 | .vSetWave _ _ => 0 | .vNext _ => 1 | .engProc _ => 1
  | .pipeSmp _ => 1 | .pipeBlk => 0 | .ctick _ _ _ _ => 0 | .fpoll => 2

/-! ## The invariant of reachable states -/

/-- A number lies in `[0, 1)` (10_state.md R29). -/
def inUnit (a : F32) : Bool := fge a pzero && flt a fOne

/-- What holds of the registers of a voice below `CFG.NV` (10_state.md R29). -/
structure VoiceInv (c : Cfg) (v : Voice) : Prop where
  /-- `1 <= act_len <= CFG.WT` -/
  actLen : 1 ≤ v.actLen.toNat ∧ v.actLen.toNat ≤ c.wt.toNat
  /-- a queued waveform has a legal length -/
  swapLen : v.waveSet = true → 1 ≤ v.swapLen.toNat ∧ v.swapLen.toNat ≤ c.wt.toNat
  /-- nothing is pending before the first `set_waveform` -/
  pending : v.pending = true → v.waveSet = true
  /-- the increment is that of the stored period (90_conflicts.md C7) -/
  rate : v.rateSet = true → 1 ≤ v.period.toNat ∧ v.inc = incOf v.period

/-- What holds while `RUNNING = 1`. -/
structure RunningInv (s : State) : Prop where
  /-- the configuration passed the checks (40_system_access.md R102) -/
  valid : s.cfg.valid = true
  /-- and fits the memory (R103) -/
  fits : s.cfg.total ≤ s.arenaCap
  /-- no cell outside a memory is listed (20_memory.md R61) -/
  below : ∀ sp, cellsBelow (s.cfg.spaceSize sp) (s.mem.cells sp) = true
  /-- the window table is as INIT wrote it (R61, R104) -/
  tableWin : s.mem.anWin = tableCells (winCoef s.cfg.win.toNat) s.cfg.win.toNat 0
  /-- so are the twiddle tables -/
  tableTwr : s.mem.anTwr = tableCells (twCos s.cfg.win.toNat) (s.cfg.win.toNat / 2) 0
  tableTwi : s.mem.anTwi = tableCells (fun k => fsub pzero (twSin s.cfg.win.toNat k)) (s.cfg.win.toNat / 2) 0
  /-- the tracker's indexes lie in the ring (10_state.md R27) -/
  ctWr : s.ct.wr.toNat < s.cfg.ring.toNat
  ctLastZc : s.ct.lastZc.toNat < s.cfg.ring.toNat
  ctCycStart : s.ct.cycStart.toNat < s.cfg.ring.toNat
  ctCycEnd : s.ct.cycEnd.toNat < s.cfg.ring.toNat
  /-- `CT.cyc_len < CFG.RING` (R27) -/
  ctCycLen : s.ct.cycLen.toNat < s.cfg.ring.toNat
  /-- the pipeline's counters (R31) -/
  hwr : s.pipe.hwr.toNat < s.cfg.hist.toNat
  hopCnt : s.pipe.hopCnt.toNat < s.cfg.hop.toNat
  fill : s.pipe.fill.toNat ≤ s.cfg.win.toNat
  /-- the round-robin index (R30) -/
  rr : s.eng.rr.toNat < s.cfg.nv.toNat
  /-- the mix amplitude (40_system_access.md R104) -/
  amp : s.eng.amp = fdiv fOne (u2f s.cfg.nv)
  /-- the peak bin is one of those scanned (43_analyzer.md R163) -/
  anK : s.an.k.toNat < s.cfg.win.toNat / 2
  /-- a window is in the slot only after `CFG.WIN` samples (45_pipeline.md R222) -/
  full : s.wmb.full = true → s.pipe.fill = s.cfg.win
  /-- an estimate is published only after the first analysis (R230) -/
  present : s.freq.present = true → s.an.primed = true
  /-- the voices -/
  voices : ∀ v, v < s.cfg.nv.toNat → VoiceInv s.cfg (s.voice v)
  /-- the bank of a voice at or above `CFG.NV` is never written (10_state.md R47) -/
  others : ∀ v, s.cfg.nv.toNat ≤ v → s.voice v = Voice.reset

/-- What holds while `RUNNING = 0` (10_state.md R50): all but the configuration, the coefficients, `CTL` and the fault
registers is as reset leaves it. -/
structure StoppedInv (s : State) : Prop where
  mem : s.mem = Memory.empty
  lpf : s.lpf.value = 0 ∧ s.lpf.prev = 0
  env0 : s.env0.value = 0
  env1 : s.env1.value = 0
  zdPrev : s.zdPrev = 0
  cd : s.cd = State.reset.cd
  ct : s.ct = State.reset.ct
  an : s.an = State.reset.an
  voices : s.voices = State.reset.voices
  eng : s.eng = State.reset.eng
  pipe : s.pipe = State.reset.pipe
  wmb : s.wmb = State.reset.wmb
  freq : s.freq = State.reset.freq
  ctrl : s.ctrl = State.reset.ctrl

/-- The invariant: it holds at reset and every step keeps it. -/
structure Inv (s : State) : Prop where
  /-- the memories have the canonical form -/
  memWf : s.mem.wf = true
  /-- `FAULT` holds 0 or one of the six codes (60_exceptions.md R250) -/
  faultCode : s.fault.toNat ≤ 6
  /-- `FAULT_INFO` is 0 while no fault is recorded (R250) -/
  faultInfo : s.fault = 0 → s.faultInfo = 0
  running : s.running = true → RunningInv s
  stopped : s.running = false → StoppedInv s

/-! ## The encoding table (30_encoding.md R86) -/

/-- One row of R86: a command, its `match` and `mask`, and its number of operand words. -/
structure EncodingRow where
  op : Opcode
  pattern : Word
  mask : Word
  operands : Nat
  deriving DecidableEq, Repr

/-- The columns `match` and `mask` of R86, row by row. -/
def encodingTable : List EncodingRow :=
  [⟨.nop, 0x00000000, 0xFFFFFFFF, 0⟩, ⟨.init, 0x01000000, 0xFFFFFFFF, 0⟩, ⟨.rdreg, 0x02000000, 0xFFFF0000, 0⟩,
   ⟨.wrreg, 0x03000000, 0xFFFF0000, 1⟩, ⟨.rdmem, 0x04000000, 0xFF00FFFF, 1⟩, ⟨.wrmem, 0x05000000, 0xFF00FFFF, 2⟩,
   ⟨.envProc, 0x10000000, 0xFF00FFFF, 1⟩, ⟨.lpfProc, 0x11000000, 0xFFFFFFFF, 1⟩, ⟨.zdProc, 0x12000000, 0xFFFFFFFF, 1⟩,
   ⟨.cdProc, 0x20000000, 0xFFFFFFFF, 1⟩, ⟨.ctProc, 0x21000000, 0xFFFFFFFF, 1⟩, ⟨.anProc, 0x30000000, 0xFFFFFFFF, 1⟩]
  ++
  [⟨.vSetRate, 0x40000000, 0xFF00FFFF, 1⟩, ⟨.vSetWave, 0x41000000, 0xFF00FFFF, 1⟩, ⟨.vNext, 0x42000000, 0xFF00FFFF, 0⟩,
   ⟨.engProc, 0x43000000, 0xFFFFFFFF, 1⟩, ⟨.pipeSmp, 0x50000000, 0xFFFFFFFF, 1⟩, ⟨.pipeBlk, 0x51000000, 0xFFFFFFFF, 0⟩,
   ⟨.ctick, 0x52000000, 0xFFFFFFFF, 4⟩, ⟨.fpoll, 0x53000000, 0xFFFFFFFF, 0⟩]

/-! ## What the statements compute from a state -/

/-- Check number `n` of the configuration holds (40_system_access.md R102). -/
def Cfg.check (c : Cfg) : (n : Nat) → Prop
  | 1 => fgt c.fs pzero = true ∧ c.fs ≠ plusInf
  | 2 => 1 ≤ c.block.toNat ∧ c.block.toNat ≤ 2 ^ 24
  | 3 => (∃ b : Nat, c.win.toNat = 2 ^ b) ∧ 2 ≤ c.win.toNat ∧ c.win.toNat ≤ 2 ^ 24
  | 4 => 1 ≤ c.hop.toNat ∧ c.hop.toNat ≤ 2 ^ 24
  | 5 => 1 ≤ c.nv.toNat ∧ c.nv.toNat ≤ 256
  | 6 => 1 ≤ c.ring.toNat ∧ c.ring.toNat ≤ 2 ^ 24
  | 7 => 1 ≤ c.hist.toNat ∧ c.hist.toNat ≤ 2 ^ 24
  | 8 => 1 ≤ c.wt.toNat ∧ c.wt.toNat ≤ 2 ^ 24
  | 9 => c.win.toNat + c.hop.toNat ≤ c.hist.toNat
  | _ => True

/-- The detector's whole update by one sample (42_cycle.md R140): the state it leaves and the `CycleInfo` it returns. -/
def State.detect (s : State) (x : F32) : State × CycleInfo :=
  let v := if s.ctl.lpfEn then (s.lpf.next x).value else x
  let s1 := if s.ctl.lpfEn then s.setLpf (s.lpf.next x) else s
  let e0 := s.env0.next v
  let e1 := s.env1.next v
  let g := gateStep s.cd v e0.value e1.value
  let c := cycleStep g.1 g.2.1 g.2.2
  (((s1.setEnv0 e0).setEnv1 e1).setCd c.1, { length := c.1.length, start := c.2 })

/-- The tracker's whole update by one sample (R145): the state it leaves and the `Cycle` it returns. -/
def State.track (s : State) (x : F32) : State × Cycle :=
  let idx := s.ct.wr
  let next := u32 ((idx.toNat + 1) % s.cfg.ring.toNat)
  let zc := if fle (fmul x s.zdPrev) pzero then idx else s.ct.lastZc
  let d := (((s.poke .ring idx.toNat x).setCt { s.ct with wr := next, lastZc := zc }).setZdPrev x).detect x
  let ct := d.1.ct
  let ct' : Ct :=
    if d.2.start then
      { ct with cycStart := ct.cycEnd, cycEnd := ct.lastZc, cycLen := subMod ct.lastZc ct.cycEnd s.cfg.ring }
    else ct
  (d.1.setCt ct', { start := ct'.cycStart, stop := ct'.cycEnd, length := ct'.cycLen, fresh := d.2.start })

/-- The assignment of a cycle's period (44_voice_engine.md R196): a fresh one that is not empty goes to the voice at the
round-robin index, which then moves on. -/
def State.assigned (s : State) (c : Cycle) : State :=
  if c.fresh = true ∧ 0 < c.length.toNat then
    let v := s.eng.rr.toNat
    (s.setVoice v { s.voice v with period := c.length, inc := fdiv fOne (u2f c.length), rateSet := true }).setEng
      { s.eng with rr := u32 ((v + 1) % s.cfg.nv.toNat) }
  else s

/-- The state the engine mixes in: after the tracker and the assignment (R196). -/
def State.tracked (s : State) (x : F32) : State := (s.track x).1.assigned (s.track x).2

/-- Voice `v` can give a sample: it exists and is set up, its position lies in its active buffer, and that buffer lies
in `VBUF` (R193). -/
def State.voicePlays (s : State) (v : Nat) : Prop :=
  s.hasVoice v = true ∧ (s.voice v).waveSet = true ∧ (s.voice v).rateSet = true
    ∧ (s.voice v).actLen.toNat ≤ s.cfg.wt.toNat
    ∧ (floorU (s.voice v).position (s.voice v).actLen).isSome = true

/-- The sample voice `v` gives (R193): the interpolation between the two cells at its position, the neighbour of the
last one being the first. -/
def State.voiceSample (s : State) (v : Nat) : F32 :=
  let x := s.voice v
  let pos := fmul x.phase (u2f x.actLen)
  let i0 := (floorU pos x.actLen).getD 0
  let i1 := (i0 + 1) % x.actLen.toNat
  let a := s.peek .vbuf (vbufIndex s.cfg.wt.toNat v x.act i0)
  let b := s.peek .vbuf (vbufIndex s.cfg.wt.toNat v x.act i1)
  fadd a (fmul (fsub pos (u2f (u32 i0))) (fsub b a))

/-- The mix of the first `n` voices (R196): each sample times `ENG.amp`, rounded, then added, voice 0 first. -/
def State.mixOf (s : State) : (n : Nat) → F32
  | 0 => pzero
  | n + 1 => fadd (s.mixOf n) (fmul (s.voiceSample n) s.eng.amp)

/-- The voices below `n` advanced by one sample (R193, R196), nothing else changed. -/
def State.advancedTo (s : State) (n : Nat) : State :=
  s.setVoices (s.voices.mapIdx (fun v x => if v < n then x.advance else x))

/-- The last `n` samples of the history copied into the window slot, the oldest first (45_pipeline.md R222). -/
def State.windowCopied (s : State) : (n : Nat) → State
  | 0 => s
  | n + 1 =>
    let cap := s.cfg.hist.toNat
    (s.windowCopied n).poke .wmb n (s.peek .hist ((s.pipe.hwr.toNat + cap - s.cfg.win.toNat + n) % cap))

/-- The state the engine runs in when a sample goes through the pipeline (R220 to R222): the sample in the history, and,
at a hop boundary in automatic mode once the history holds a window, the window in the slot. -/
def State.recorded (s : State) (x : F32) : State :=
  let hop := s.pipe.hopCnt.toNat + 1
  let h := (s.poke .hist s.pipe.hwr.toNat x).setPipe
    { hwr := u32 ((s.pipe.hwr.toNat + 1) % s.cfg.hist.toNat)
      fill := u32 (min (s.pipe.fill.toNat + 1) s.cfg.win.toNat)
      hopCnt := if hop = s.cfg.hop.toNat then 0 else u32 hop }
  if hop = s.cfg.hop.toNat ∧ s.ctl.anAuto = true ∧ h.pipe.fill = s.cfg.win then
    (h.windowCopied s.cfg.win.toNat).setWmb
      { full := true, drop := if s.wmb.full then u32 (min (s.wmb.drop.toNat + 1) (2 ^ 32 - 1)) else s.wmb.drop }
  else h

/-- The state the voices play in when a sample goes through the pipeline (R220). -/
def State.sampleReady (s : State) (x : F32) : State := (s.recorded x).tracked x

/-- The state after the first `n` samples of a block, when every voice plays (R224). -/
def State.afterSamples (s : State) : (n : Nat) → State
  | 0 => s
  | n + 1 =>
    let u := s.afterSamples n
    let r := u.sampleReady (u.peek .inBuf n)
    (r.advancedTo u.cfg.nv.toNat).poke .outBuf n (r.mixOf u.cfg.nv.toNat)

/-- The radix-2 decimation in time of `2^b` samples (43_analyzer.md R162): the transforms of the samples of even and of odd
number, joined by butterflies with the twiddles `tw`, every `step`-th of which this level uses. -/
def radix2 (tw : Nat → F32 × F32) : (b step : Nat) → (Nat → F32 × F32) → Nat → F32 × F32
  | 0, _, x, _ => x 0
  | b + 1, step, x, k =>
    let j := k % 2 ^ b
    let e := radix2 tw b (2 * step) (fun n => x (2 * n)) j
    let o := radix2 tw b (2 * step) (fun n => x (2 * n + 1)) j
    let w := tw (j * step)
    let re := fsub (fmul o.1 w.1) (fmul o.2 w.2)
    let im := fadd (fmul o.1 w.2) (fmul o.2 w.1)
    if k < 2 ^ b then (fadd e.1 re, fadd e.2 im) else (fsub e.1 re, fsub e.2 im)

/-- The real and the imaginary cell of a number in the analyzer's work buffer. -/
def State.workCell (s : State) (k : Nat) : F32 × F32 := (s.peek .anRe k, s.peek .anIm k)

/-- A twiddle factor as INIT stored it. -/
def State.twiddle (s : State) (k : Nat) : F32 × F32 := (s.peek .anTwr k, s.peek .anTwi k)

/-- The raw window in the work buffer turned into its spectrum (43_analyzer.md R161, R162). -/
def anTransform : M Unit := do
  anWindow
  anFft

/-- The window in the slot turned into its spectrum in the work buffer (R160 to R162). -/
def anSpectrum : M Unit := do
  anLoad
  anTransform

/-- The magnitude of a bin of the work buffer (R163). -/
def State.binMag (s : State) (b : Nat) : F32 :=
  fadd (fmul (s.peek .anRe b) (s.peek .anRe b)) (fmul (s.peek .anIm b) (s.peek .anIm b))

/-- Bin `k` is the one the scan of a spectrum ends with (R163): no bin is greater, every lower bin is less or a NaN, and
the scan never leaves a bin 0 that is a NaN. -/
def State.peakBin (s : State) (k : Nat) : Prop :=
  k < s.cfg.win.toNat / 2
    ∧ (isNaN (s.binMag 0) = true → k = 0)
    ∧ (∀ b, b < s.cfg.win.toNat / 2 → fgt (s.binMag b) (s.binMag k) = false)
    ∧ (∀ b, b < k → fgt (s.binMag k) (s.binMag b) = true ∨ isNaN (s.binMag b) = true)

/-- The phase of a bin of the work buffer (R163). -/
def State.binPhase (s : State) (b : Nat) : F32 := atan2 (s.peek .anIm b) (s.peek .anRe b)

/-- The refined estimate (R164, R165) for the spectrum of `u` and the phase history of `s` at bin `k`, none when the
refinement does not converge. -/
def State.estimate (s u : State) (k : Nat) : Option F32 :=
  refined s.cfg { k := k, prevPhase := s.peek .anPhase k, curPhase := u.binPhase k } (coarseEstimate s.cfg k)

/-- `p` after `j` rounds of the refinement (R165). -/
def unwrapOffset : Nat → F32
  | 0 => pzero
  | j + 1 => fadd (unwrapOffset j) twoPi

/-- Candidate `j` of the refinement (R165). -/
def candidate (c : Cfg) (dp : F32) (j : Nat) : F32 := fdiv (fadd dp (unwrapOffset j)) (hopTime c)

/-- The registers ENG.PROC may write, however it ends (44_voice_engine.md R197): the tracker's, the round-robin index, the
voices' and, on a fault, the fault registers. -/
def Reg.writtenByEngine : Reg → Prop
  | .lpfValue => True | .lpfPrev => True | .env0Value => True | .env1Value => True | .zdPrev => True
  | .cdGates => True | .cdCount => True | .cdLength => True
  | .ctWr => True | .ctLastZc => True | .ctCycStart => True | .ctCycEnd => True | .ctCycLen => True
  | .engRr => True | .voice _ _ => True
  | .fault => True | .faultInfo => True | .status => True
  | _ => False

/-! ## The audio path and the analyzer (60_exceptions.md R262) -/

/-- The state with all that the analyzer agent writes blanked out: the analyzer's registers and memories and the window
and frequency mailboxes. -/
def State.audioPart (s : State) : State :=
  { s with
    an := State.reset.an
    freq := State.reset.freq
    wmb := State.reset.wmb
    mem := { s.mem with wmb := [], anRe := [], anIm := [], anPhase := [], anWin := [], anTwr := [], anTwi := [] } }

/-- The commands that neither read the analyzer's state back nor run the analyzer nor create the memories. -/
def onAudioPath : Instr → Bool
  | .nop => true | .init => false | .rdreg _ => false | .wrreg _ _ => true | .rdmem _ _ => false
  | .wrmem _ _ _ => false | .envProc _ _ => true | .lpfProc _ => true | .zdProc _ => true | .cdProc _ => true
  | .ctProc _ => true | .anProc _ => false | .vSetRate _ _ => true | .vSetWave _ _ => true | .vNext _ => true
  | .engProc _ => true | .pipeSmp _ => true | .pipeBlk => true | .ctick _ _ _ _ => true | .fpoll => false

end Sys2Proof.Machine
end

