-- ==== Sys2Proof/Certificates/Slice0/Obligations.lean ====
section
/-! DEFINITION. The statements about the model, for the provers. `u` below is the state a unit leaves, `t` the state a
command leaves; a command that completes leaves `t.respond .ok results`. -/

open Sys2Proof Sys2Proof.Machine

/-! ## Encoding -/

/-- Decoding the words of a well-formed command gives the command back, whatever follows (30_encoding.md R81 to R83,
R86, R88). -/
def Obligations.DecodeEncodeRoundTrip : Prop :=
  ∀ (i : Instr) (rest : List Word), i.wellFormed = true → decode (encode i ++ rest) = .command i rest

/-- What decodes to a command is the encoding of that command: no bit of its words is dropped (R81 to R83, R86, R87). -/
def Obligations.EncodeDecodeRoundTrip : Prop :=
  ∀ (ws : List Word) (i : Instr) (rest : List Word),
    decode ws = .command i rest → i.wellFormed = true ∧ encode i ++ rest = ws

/-- A command word that agrees with `match` under `mask` heads the command of that row, with that row's number of operand
words (R82, R86, R88). -/
def Obligations.MatchAndMaskSelectCommand : Prop :=
  ∀ e ∈ encodingTable, ∀ (w : Word) (ws : List Word), w &&& e.mask = e.pattern → e.operands ≤ ws.length →
    ∃ i, decode (w :: ws) = .command i (ws.drop e.operands) ∧ i.opcode = e.op ∧ i.wellFormed = true

/-- An illegal command word is answered ST_ERR_ILLEGAL and nothing else happens: one of an unknown opcode is one word
long, one with a reserved field set takes its operand words with it (R87). -/
def Obligations.IllegalWordsAnswered : Prop :=
  ∀ (s : State) (w : Word) (ws : List Word), s.commandNext → s.port = w :: ws →
    ((∀ e ∈ encodingTable, w &&& 0xFF000000 ≠ e.pattern) →
        step s = .next ((s.endTurn ws).respond .errIllegal []))
    ∧ (∀ e ∈ encodingTable, w &&& 0xFF000000 = e.pattern → w &&& e.mask ≠ e.pattern → e.operands ≤ ws.length →
        step s = .next ((s.endTurn (ws.drop e.operands)).respond .errIllegal []))

/-- Words written out from R86 and the examples of the command rules decode to the commands they stand for. -/
def Obligations.WrittenWordsDecode : Prop :=
  decode [0x00000000] = .command .nop []
  ∧ decode [0x02000020] = .command (.rdreg 0x20) []
  ∧ decode [0x03000010, 0x3F000000] = .command (.wrreg 0x10 0x3F000000) []
  ∧ decode [0x05090000, 0x00000001, 0x3F800000] = .command (.wrmem 9 1 0x3F800000) []
  ∧ decode [0x10010000, 0x3F800000] = .command (.envProc 1 0x3F800000) []
  ∧ decode [0x21000000, 0xBF800000] = .command (.ctProc 0xBF800000) []
  ∧ decode [0x30000000, 0x00000400] = .command (.anProc 1024) []
  ∧ decode [0x40000000, 0x00000008] = .command (.vSetRate 0 8) []
  ∧ decode [0x52000000, 0x00000000, 0x3E800000, 0x3F000000, 0x3F800000]
      = .command (.ctick 0x00000000 0x3E800000 0x3F000000 0x3F800000) []

/-! ## The step and the response -/

/-- A step of the command agent runs the command at the head of the port (R80; 00_scope.md R17). -/
def Obligations.StepRunsDecodedCommand : Prop :=
  ∀ (s : State) (i : Instr) (rest : List Word), s.commandNext → decode s.port = .command i rest →
    step s = exec i (s.endTurn rest)

/-- Every command that ends sends one response, with as many result words as R86 gives it when it is ST_OK and none
otherwise (R84), and the response word has the layout of R84. -/
def Obligations.OneResponsePerCommand : Prop :=
  (∀ (i : Instr) (s t : State), exec i s = .next t →
    ∃ st rs, s.answered t st rs ∧ rs.length = (if st = .ok then resultCount i else 0) ∧ st ≠ .errIllegal
      ∧ t.port = s.port ∧ t.sched = s.sched)
  ∧ (∀ r : Response, r.results.length ≤ 4 →
    ∃ w, r.words = w :: r.results ∧ w.toNat / 2 ^ 24 = r.status.code ∧ w.toNat / 2 ^ 16 % 2 ^ 8 = r.results.length
      ∧ w.toNat % 2 ^ 16 = 0)

/-- A command answered with an error status has changed nothing (00_scope.md R14, 60_exceptions.md R254). -/
def Obligations.RefusalChangesNothing : Prop :=
  ∀ (i : Instr) (s t : State) (st : Status) (rs : List Word), exec i s = .next t → s.answered t st rs →
    st ≠ .ok → st ≠ .fault → t = s.respond st []

/-- While a fault is recorded every command but three is refused, the analyzer agent has no step, only reset changes the
fault registers, and the run has not ended well (R252). -/
def Obligations.FaultedBlockDoesNoWork : Prop :=
  ∀ s : State, s.fault ≠ 0 →
    (∀ i : Instr, i ≠ .nop → (∀ a, i ≠ .rdreg a) → (∀ sp k, i ≠ .rdmem sp k) →
        exec i s = .next (s.respond .errFaulted []))
    ∧ s.agentIdle
    ∧ (∀ t, ¬ s.resetNext → step s = .next t → t.fault = s.fault ∧ t.faultInfo = s.faultInfo)
    ∧ ¬ s.endedWell

/-- The running state decides next (R92, check 3): INIT is refused while the block runs, and every command but NOP, INIT,
RDREG and WRREG before it does. -/
def Obligations.RunningStateChecked : Prop :=
  ∀ s : State, s.fault = 0 →
    (s.running = true → exec .init s = .next (s.respond .errState []))
    ∧ (s.running = false → ∀ i : Instr, i ≠ .nop → i ≠ .init → (∀ a, i ≠ .rdreg a) → (∀ a w, i ≠ .wrreg a w) →
        exec i s = .next (s.respond .errState []))

/-- Which command raises which fault (R250, column raised by): the response is ST_FAULT exactly when a fault is recorded,
and the code is one of those the command can raise. -/
def Obligations.FaultsByCommand : Prop :=
  ∀ (i : Instr) (s t : State), s.fault = 0 → exec i s = .next t →
    (t.fault ≠ 0 ↔ s.answered t .fault [])
    ∧ (t.fault ≠ 0 →
        ((t.fault = 1 ∨ t.fault = 2) ∧ i = .init)
        ∨ ((t.fault = 3 ∨ t.fault = 6) ∧ ∃ len, i = .anProc len)
        ∨ ((t.fault = 4 ∨ t.fault = 5)
            ∧ ((∃ v, i = .vNext v) ∨ (∃ x, i = .engProc x) ∨ (∃ x, i = .pipeSmp x) ∨ i = .pipeBlk)))

/-- Reset, from whatever state (70_reset_and_hazards.md R280): the block is as `State.reset` leaves it and the analyzer
agent has no step. That the words already sent stay, but for those of a command in the middle of which reset falls, is
the model's choice (log 4). -/
def Obligations.ResetFromAnyState : Prop :=
  ∀ s : State, s.resetNext →
    ∃ p, step s = .next { State.reset with arenaCap := s.arenaCap, port := p, sched := s.sched.tail, resp := s.resp }
      ∧ (s.sched.head? = some .reset → p = s.port)
      ∧ (s.sched.head? = some .resetInCommand → p = s.port.drop ((s.port.head?.map commandLength).getD 0))
      ∧ ({ State.reset with arenaCap := s.arenaCap, port := p, sched := s.sched.tail, resp := s.resp } : State).agentIdle

/-- After a successful INIT only reset undoes it: the configuration and the sizes of the memories stay, and INIT is
refused (R283). -/
def Obligations.OnlyResetUndoesInit : Prop :=
  ∀ s : State, s.running = true →
    (∀ t, ¬ s.resetNext → step s = .next t →
        t.running = true ∧ t.cfg = s.cfg ∧ ∀ sp, t.spaceSize sp = s.spaceSize sp)
    ∧ (exec .init s = .next (s.respond .errState []) ∨ exec .init s = .next (s.respond .errFaulted []))

/-! ## System and access commands -/

/-- NOP does nothing and RDREG answers the register at a mapped address and changes nothing, both in every state; an
unmapped address is refused (40_system_access.md R100, R105). -/
def Obligations.NopAndReadRegister : Prop :=
  ∀ s : State,
    exec .nop s = .next (s.respond .ok [])
    ∧ (∀ a r, regOf a = some r → exec (.rdreg a) s = .next (s.respond .ok [s.regWord r]))
    ∧ (∀ a, regOf a = none → exec (.rdreg a) s = .next (s.respond .errOperand []))

/-- The mapped addresses are exactly those R48 lists, and RDREG and WRREG to any other change nothing. -/
def Obligations.MappedAddresses : Prop :=
  (∀ a : Nat, (regOf a).isSome = true ↔
    a ≤ 0x0007 ∨ (0x0010 ≤ a ∧ a ≤ 0x0015) ∨ (0x0020 ≤ a ∧ a ≤ 0x0024) ∨ (0x0028 ≤ a ∧ a ≤ 0x002F)
    ∨ a = 0x0100 ∨ a = 0x0101 ∨ a = 0x0104 ∨ a = 0x0105 ∨ a = 0x0108
    ∨ (0x0110 ≤ a ∧ a ≤ 0x0112) ∨ (0x0118 ≤ a ∧ a ≤ 0x011C) ∨ a = 0x0120 ∨ a = 0x0121
    ∨ (0x0128 ≤ a ∧ a ≤ 0x012A) ∨ a = 0x0130 ∨ a = 0x0131
    ∨ ∃ v j, v < 256 ∧ j ≤ 5 ∧ a = 0x1000 + 8 * v + j)
  ∧ (∀ (a : Nat) (d : Word) (s : State), regOf a = none →
      exec (.rdreg a) s = .next (s.respond .errOperand [])
      ∧ (s.fault = 0 → exec (.wrreg a d) s = .next (s.respond .errOperand [])))

/-- The bits of STATUS, of CTL, of the gates word and of a voice's flags word, and no other bit is ever set (10_state.md
R42, R43, R46, R47). -/
def Obligations.FlagBits : Prop :=
  (∀ (s : State) (j : Nat), (s.regWord .status).getLsbD j =
    match j with
    | 0 => s.running
    | 1 => s.fault != 0
    | 2 => s.an.busy
    | 3 => s.wmb.full
    | 4 => s.freq.present
    | 5 => s.ctrl.present
    | 6 => s.an.primed
    | _ => false)
  ∧ (∀ (s : State) (j : Nat), (s.regWord .ctl).getLsbD j =
    match j with
    | 0 => s.ctl.lpfEn
    | 1 => s.ctl.anAuto
    | _ => false)
  ∧ (∀ (s : State) (j : Nat), (s.regWord .cdGates).getLsbD j =
    match j with
    | 0 => s.cd.high == .on
    | 1 => s.cd.low == .on
    | 2 => s.cd.cycle == .on
    | _ => false)
  ∧ (∀ (s : State) (v j : Nat), (s.regWord (.voice v .flags)).getLsbD j =
    match j with
    | 0 => (s.voice v).act
    | 1 => (s.voice v).pending
    | 2 => (s.voice v).waveSet
    | 3 => (s.voice v).rateSet
    | _ => false)

/-- WRREG stores the word as given in a writable register and in no other, and touches no memory; a read-only register, a
configuration register of a running block and a word for CTL with a reserved bit are refused (R106). -/
def Obligations.WriteRegister : Prop :=
  ∀ (s : State) (a : Nat) (r : Reg) (w : Word), s.fault = 0 → regOf a = some r →
    (r.access ≠ .ro → ¬ (r.access = .rwLock ∧ s.running = true) → (r = .ctl → w.toNat < 4) →
        exec (.wrreg a w) s = .next ((s.putReg r w).respond .ok [])
        ∧ (s.putReg r w).regWord r = w
        ∧ s.sameRegistersBut (s.putReg r w) (fun q => q = r)
        ∧ s.sameMemory (s.putReg r w))
    ∧ (r.access = .ro → exec (.wrreg a w) s = .next (s.respond .errAccess []))
    ∧ (r.access = .rwLock → s.running = true → exec (.wrreg a w) s = .next (s.respond .errAccess []))
    ∧ (r = .ctl → 4 ≤ w.toNat → exec (.wrreg a w) s = .next (s.respond .errOperand []))

/-- RDMEM answers the cell of a running block and changes nothing, fault or none; a space or an index out of range is
refused (R107). -/
def Obligations.ReadMemory : Prop :=
  ∀ (s : State) (n : Nat) (i : Word), s.running = true →
    (∀ sp, spaceOf n = some sp → i.toNat < s.cfg.spaceSize sp →
        exec (.rdmem n i) s = .next (s.respond .ok [s.peek sp i.toNat]))
    ∧ (∀ sp, spaceOf n = some sp → s.cfg.spaceSize sp ≤ i.toNat →
        exec (.rdmem n i) s = .next (s.respond .errOperand []))
    ∧ (12 < n → exec (.rdmem n i) s = .next (s.respond .errOperand []))

/-- WRMEM stores the word in one cell of a space the host may write and changes nothing else; every other space is refused,
and a space or an index out of range before that (R108). -/
def Obligations.WriteMemory : Prop :=
  ∀ (s : State) (n : Nat) (i w : Word), s.ready →
    (∀ sp, spaceOf n = some sp → i.toNat < s.cfg.spaceSize sp →
      sp = .wstage ∨ sp = .inBuf ∨ (sp = .wmb ∧ s.ctl.anAuto = false) →
        exec (.wrmem n i w) s = .next ((s.poke sp i.toNat w).respond .ok [])
        ∧ (s.mem.wf = true → (s.poke sp i.toNat w).peek sp i.toNat = w)
        ∧ s.sameMemoryBut (s.poke sp i.toNat w) (fun q k => q = sp ∧ k = i.toNat)
        ∧ s.sameRegistersBut (s.poke sp i.toNat w) (fun _ => False))
    ∧ (∀ sp, spaceOf n = some sp → i.toNat < s.cfg.spaceSize sp →
      ¬ (sp = .wstage ∨ sp = .inBuf ∨ (sp = .wmb ∧ s.ctl.anAuto = false)) →
        exec (.wrmem n i w) s = .next (s.respond .errAccess []))
    ∧ (∀ sp, spaceOf n = some sp → s.cfg.spaceSize sp ≤ i.toNat →
        exec (.wrmem n i w) s = .next (s.respond .errOperand []))
    ∧ (12 < n → exec (.wrmem n i w) s = .next (s.respond .errOperand []))

/-- INIT of a legal configuration that fits sets the block running with the memories of R104: the three tables as the
parameters give them, every other cell +0.0; it sets the active lengths and the mix amplitude, and nothing else
(R101, R104). -/
def Obligations.InitCompletes : Prop :=
  ∀ s : State, s.fault = 0 → s.running = false → (∀ n, s.cfg.check n) →
    s.cfg.ring.toNat + s.cfg.hist.toNat + 5 * s.cfg.win.toNat + s.cfg.win.toNat / 2
      + s.cfg.wt.toNat * (2 * s.cfg.nv.toNat + 1) + 2 * s.cfg.block.toNat ≤ s.arenaCap →
    ∃ t, exec .init s = .next (t.respond .ok [])
      ∧ t.running = true
      ∧ (∀ i, i < s.cfg.win.toNat → t.peek .anWin i = winCoef s.cfg.win.toNat i)
      ∧ (∀ k, k < s.cfg.win.toNat / 2 → t.peek .anTwr k = twCos s.cfg.win.toNat k
            ∧ t.peek .anTwi k = fsub pzero (twSin s.cfg.win.toNat k))
      ∧ (∀ sp i, sp ≠ .anWin → sp ≠ .anTwr → sp ≠ .anTwi → t.peek sp i = pzero)
      ∧ t.mem.wf = true
      ∧ (∀ v, v < s.cfg.nv.toNat → (t.voice v).actLen = s.cfg.wt)
      ∧ t.eng.amp = fdiv fOne (u2f s.cfg.nv)
      ∧ s.sameRegistersBut t
          (fun r => r = .status ∨ r = .engAmp ∨ ∃ v, v < s.cfg.nv.toNat ∧ r = .voice v .actLen)
      ∧ (t.an, t.wmb, t.freq, t.ctrl) = (s.an, s.wmb, s.freq, s.ctrl)
      ∧ (t.arenaCap, t.port, t.sched, t.resp) = (s.arenaCap, s.port, s.sched, s.resp)

/-- INIT of an illegal configuration records the number of the first check that fails (R102); of a legal one that does not
fit, the number of words asked for (R103). Nothing else changes. -/
def Obligations.InitFaults : Prop :=
  ∀ s : State, s.fault = 0 → s.running = false →
    let total := s.cfg.ring.toNat + s.cfg.hist.toNat + 5 * s.cfg.win.toNat + s.cfg.win.toNat / 2
      + s.cfg.wt.toNat * (2 * s.cfg.nv.toNat + 1) + 2 * s.cfg.block.toNat
    (∀ n, 1 ≤ n → ¬ s.cfg.check n → (∀ m, m < n → s.cfg.check m) →
        exec .init s = .next ((s.setFault 2 (u32 n)).respond .fault []))
    ∧ ((∀ n, s.cfg.check n) → s.arenaCap < total →
        exec .init s = .next ((s.setFault 1 (u32 (min total (2 ^ 32 - 1)))).respond .fault []))

/-! ## Filters -/

/-- ENV.PROC (41_filters.md R120): the envelope moves by the rate of its direction times the distance, each operation
rounded by itself; an instance above 1 is refused. -/
def Obligations.EnvelopeFollows : Prop :=
  ∀ (s : State) (inst : Nat) (x : F32), s.ready →
    (inst ≤ 1 →
      let e := s.env inst
      let rate := if fgt x e.value = true then e.rise else e.fall
      let y := fadd e.value (fmul rate (fsub x e.value))
      exec (.envProc inst x) s = .next ((s.setEnv inst { e with value := y }).respond .ok [y]))
    ∧ (1 < inst → exec (.envProc inst x) s = .next (s.respond .errOperand []))

/-- LPF.PROC (R121): the five operations in their order, and the sample kept. -/
def Obligations.LowPassFilters : Prop :=
  ∀ (s : State) (x : F32), s.ready →
    let t2 := fmul fHalf (fadd x s.lpf.prev)
    let y := fadd s.lpf.value (fmul s.lpf.decay (fsub t2 s.lpf.value))
    exec (.lpfProc x) s = .next ((s.setLpf { s.lpf with value := y, prev := x }).respond .ok [y])

/-- ZD.PROC (R122): the crossing is a rounded product of at most zero, and the sample is kept whatever the result; a
number that is not zero, followed by its negative, always crosses (R122 (f)). -/
def Obligations.ZeroCrossingDetected : Prop :=
  (∀ (s : State) (x : F32), s.ready →
    exec (.zdProc x) s
      = .next ((s.setZdPrev x).respond .ok [if fle (fmul x s.zdPrev) pzero = true then 1 else 0]))
  ∧ (∀ (s : State) (x : F32), s.ready → isNaN x = false → isZero x = false → s.zdPrev = x →
    exec (.zdProc (fneg x)) s = .next ((s.setZdPrev (fneg x)).respond .ok [1]))

/-- A NaN is never lost in an envelope or in the filter (R120 (b), R121 (d)), and once both envelopes are NaN no gate of
the cycle detector moves and no start is reported (70_reset_and_hazards.md R289). -/
def Obligations.NanIsSticky : Prop :=
  (∀ (e : Env) (x : F32), isNaN x = true ∨ isNaN e.value = true → (e.next x).value = qNaN)
  ∧ (∀ (f : Lpf) (x : F32), isNaN x = true ∨ isNaN f.prev = true ∨ isNaN f.value = true → (f.next x).value = qNaN)
  ∧ (∀ (s t : State) (x : F32), s.ready → isNaN s.env0.value = true → isNaN s.env1.value = true →
      exec (.cdProc x) s = .next t →
      t.cd.high = s.cd.high ∧ t.cd.low = s.cd.low ∧ t.cd.cycle = s.cd.cycle ∧ t.cd.length = s.cd.length
      ∧ s.answered t .ok [s.cd.length, 0])

/-! ## Pitch period -/

/-- The transition tables of the gates (42_cycle.md R141, R142), with the action of the counter on a start and without
one (R143). -/
def Obligations.GateTransitions : Prop :=
  (∀ (c : Cd) (v he le : F32),
    let r := gateStep c v he le
    (c.high = .off → fgt v he = true → r.1.high = .on ∧ r.2.1 = true)
    ∧ (c.high = .off → fgt v he = false → r.1.high = .off ∧ r.2.1 = false)
    ∧ (c.high = .on → flt v he = true → r.1.high = .off ∧ r.2.1 = false)
    ∧ (c.high = .on → flt v he = false → r.1.high = .on ∧ r.2.1 = false)
    ∧ (c.low = .off → flt v le = true → r.1.low = .on ∧ r.2.2 = true)
    ∧ (c.low = .off → flt v le = false → r.1.low = .off ∧ r.2.2 = false)
    ∧ (c.low = .on → fgt v le = true → r.1.low = .off ∧ r.2.2 = false)
    ∧ (c.low = .on → fgt v le = false → r.1.low = .on ∧ r.2.2 = false)
    ∧ (feq v he = true ∨ isNaN v = true ∨ isNaN he = true → r.1.high = c.high)
    ∧ (feq v le = true ∨ isNaN v = true ∨ isNaN le = true → r.1.low = c.low)
    ∧ r.1.cycle = c.cycle ∧ r.1.count = c.count ∧ r.1.length = c.length)
  ∧ (∀ (c : Cd) (high low : Bool),
    let r := cycleStep c high low
    let n := u32 (min (c.count.toNat + 1) (2 ^ 32 - 1))
    (c.cycle = .off → high = true → r = ({ c with cycle := .on, length := n, count := 0 }, true))
    ∧ (c.cycle = .off → high = false → r = ({ c with count := n }, false))
    ∧ (c.cycle = .on → low = true → r = ({ c with cycle := .off, count := n }, false))
    ∧ (c.cycle = .on → low = false → r = ({ c with count := n }, false)))

/-- CD.PROC (R140, R144): the filter only when it is switched on, both envelopes, then the gates against the updated
envelopes, then the counter; the length and the start are the results. -/
def Obligations.CycleDetected : Prop :=
  ∀ (s : State) (x : F32), s.ready →
    exec (.cdProc x) s
      = .next ((s.detect x).1.respond .ok [(s.detect x).2.length, if (s.detect x).2.start = true then 1 else 0])

/-- CT.PROC (R145, R146): the raw sample stored, the crossing noted at its index, the detector run, and on a start the
cycle moved on to the last crossing. -/
def Obligations.CycleTracked : Prop :=
  ∀ (s : State) (x : F32), s.ready → s.ct.wr.toNat < s.cfg.ring.toNat →
    exec (.ctProc x) s
      = .next ((s.track x).1.respond .ok
          [(s.track x).2.start, (s.track x).2.stop, (s.track x).2.length,
           if (s.track x).2.fresh = true then 1 else 0])

/-- The length of a cycle is below the capacity of the ring, and walking it from the start leads to the end (R147;
10_state.md R27). -/
def Obligations.CycleLengthOnRing : Prop :=
  ∀ e s m : Word, e.toNat < m.toNat → s.toNat < m.toNat →
    (subMod e s m).toNat < m.toNat ∧ (s.toNat + (subMod e s m).toNat) % m.toNat = e.toNat

/-- What the unit commands leave alone, however they end: every register they do not name, and every cell but the one of
the ring that CT.PROC writes (R120 to R122, R144, R146). -/
def Obligations.UnitCommandsFrame : Prop :=
  ∀ (s t : State) (inst : Nat) (x : F32),
    (exec (.envProc inst x) s = .next t → s.sameMemory t ∧
      s.sameRegistersBut t (fun r => (inst = 0 ∧ r = .env0Value) ∨ (inst = 1 ∧ r = .env1Value)))
    ∧ (exec (.lpfProc x) s = .next t → s.sameMemory t ∧
      s.sameRegistersBut t (fun r => r = .lpfValue ∨ r = .lpfPrev))
    ∧ (exec (.zdProc x) s = .next t → s.sameMemory t ∧ s.sameRegistersBut t (fun r => r = .zdPrev))
    ∧ (exec (.cdProc x) s = .next t → s.sameMemory t ∧
      s.sameRegistersBut t (fun r => r ∈ [.env0Value, .env1Value, .cdGates, .cdCount, .cdLength]
        ∨ (s.ctl.lpfEn = true ∧ r ∈ [.lpfValue, .lpfPrev])))
    ∧ (exec (.ctProc x) s = .next t →
      s.sameMemoryBut t (fun sp i => sp = .ring ∧ i = s.ct.wr.toNat) ∧
      s.sameRegistersBut t (fun r => r ∈ [.env0Value, .env1Value, .cdGates, .cdCount, .cdLength, .zdPrev,
          .ctWr, .ctLastZc, .ctCycStart, .ctCycEnd, .ctCycLen]
        ∨ (s.ctl.lpfEn = true ∧ r ∈ [.lpfValue, .lpfPrev])))

/-! ## Analyzer -/

/-- The parameter functions satisfy the constraints the spec puts on them, and nothing else is known of them (00_scope.md
R12 (b), (c), (d)). -/
def Obligations.ParametersConstrained : Prop :=
  (∀ n, 2 ≤ n → n % 2 = 0 → winCoef n 0 = pzero ∧ winCoef n (n / 2) = fOne)
  ∧ (∀ n, 4 ≤ n → n % 4 = 0 → winCoef n (n / 4) = fHalf ∧ winCoef n (3 * n / 4) = fHalf)
  ∧ (∀ n, twCos n 0 = fOne ∧ twSin n 0 = pzero)
  ∧ (∀ n, 4 ≤ n → n % 4 = 0 → twCos n (n / 4) = pzero ∧ twSin n (n / 4) = fOne)
  ∧ (∀ y x, isNaN (atan2 y x) = true ↔ isNaN y = true ∨ isNaN x = true)
  ∧ (∀ y x, isNaN y = false → isNaN x = false → isFinite (atan2 y x) = true ∧ fle (fabs (atan2 y x)) fPi = true)

/-- AN.PROC is refused while the analyzer agent owns the analyzer, and a window of the wrong length is a fault that
changes nothing else (43_analyzer.md R168). -/
def Obligations.AnalyzerTurnedAway : Prop :=
  ∀ (s : State) (len : Word), s.ready →
    (s.ctl.anAuto = true ∨ s.an.busy = true → exec (.anProc len) s = .next (s.respond .errState []))
    ∧ (s.ctl.anAuto = false → s.an.busy = false → len ≠ s.cfg.win →
        exec (.anProc len) s = .next ((s.setFault 3 len).respond .fault []))

/-- Windowing (R161): each sample of the work buffer times its coefficient, the imaginary parts +0.0, nothing else
touched. -/
def Obligations.WindowApplied : Prop :=
  ∀ s : State, Inv s → s.running = true →
    ∃ u, anWindow s = .ok () u
      ∧ (∀ i, i < s.cfg.win.toNat →
          u.peek .anRe i = fmul (s.peek .anRe i) (winCoef s.cfg.win.toNat i) ∧ u.peek .anIm i = pzero)
      ∧ s.sameMemoryBut u (fun sp _ => sp = .anRe ∨ sp = .anIm)
      ∧ u = s.setMem u.mem

/-- The transform (R162): the in-place loops over the stages leave in the work buffer, bit for bit, the radix-2 decimation
in time of what it held, and touch nothing else. -/
def Obligations.TransformIsRadix2 : Prop :=
  ∀ (s : State) (b : Nat), s.running = true → s.mem.wf = true → s.cfg.win.toNat = 2 ^ b →
    ∃ u, anFft s = .ok () u
      ∧ (∀ k, k < 2 ^ b → u.workCell k = radix2 s.twiddle b 1 s.workCell k)
      ∧ s.sameMemoryBut u (fun sp i => (sp = .anRe ∨ sp = .anIm) ∧ i < 2 ^ b)
      ∧ u = s.setMem u.mem

/-- The transform of the window in the slot always ends normally, writes the work buffer alone, and one bin is the peak of
the spectrum it leaves (R160 to R163). -/
def Obligations.SpectrumHasOnePeak : Prop :=
  ∀ s : State, Inv s → s.running = true →
    ∃ u, anSpectrum s = .ok () u
      ∧ s.sameMemoryBut u (fun sp i => (sp = .anRe ∨ sp = .anIm) ∧ i < s.cfg.win.toNat)
      ∧ u = s.setMem u.mem
      ∧ u.mem.wf = true
      ∧ ∃ k, u.peakBin k ∧ ∀ k', u.peakBin k' → k' = k

/-- The refinement (R165): it fails exactly when none of its `CFG.HOP + 8` candidates exceeds the coarse estimate;
otherwise the first that does, or the one before it, is the result: the nearer of the two, the lower on a tie, and the
first candidate when there is none before it. -/
def Obligations.RefinementPicksNearer : Prop :=
  ∀ (c : Cfg) (pk : Peak) (fEst : F32),
    let f := candidate c (fsub pk.curPhase pk.prevPhase)
    (refined c pk fEst = none ↔ ∀ j, j < c.hop.toNat + 8 → fgt (f j) fEst = false)
    ∧ (∀ j, j < c.hop.toNat + 8 → fgt (f j) fEst = true → (∀ i, i < j → fgt (f i) fEst = false) →
        refined c pk fEst =
          some (if j = 0 then f 0
            else if flt (fabs (fsub (f j) fEst)) (fabs (fsub (f (j - 1)) fEst)) = true then f j else f (j - 1)))

/-- AN.PROC answers the refined estimate of the window in the slot (R160 to R168): the spectrum stays in the work buffer,
every phase is stored, the peak bin and the coarse estimate are kept, and nothing else changes. -/
def Obligations.AnalysisCompletes : Prop :=
  ∀ (s u : State) (k : Nat) (f : F32), Inv s → s.ready → s.ctl.anAuto = false → s.an.busy = false →
    anSpectrum s = .ok () u → u.peakBin k → s.estimate u k = some f →
    ∃ t, exec (.anProc s.cfg.win) s = .next (t.respond .ok [f])
      ∧ (∀ b, b < s.cfg.win.toNat / 2 → t.peek .anPhase b = u.binPhase b)
      ∧ u.sameMemoryBut t (fun sp _ => sp = .anPhase)
      ∧ t = (u.setAn { s.an with k := u32 k, fEst := coarseEstimate s.cfg k }).setMem t.mem

/-- When the refinement does not converge AN.PROC records fault 6 with the peak bin; the phase history has been written
all the same (R165, R167). -/
def Obligations.AnalysisDoesNotConverge : Prop :=
  ∀ (s u : State) (k : Nat), Inv s → s.ready → s.ctl.anAuto = false → s.an.busy = false →
    anSpectrum s = .ok () u → u.peakBin k → s.estimate u k = none →
    ∃ t, exec (.anProc s.cfg.win) s = .next ((t.setFault 6 (u32 k)).respond .fault [])
      ∧ (∀ b, b < s.cfg.win.toNat / 2 → t.peek .anPhase b = u.binPhase b)
      ∧ u.sameMemoryBut t (fun sp _ => sp = .anPhase)
      ∧ t = (u.setAn { s.an with k := u32 k, fEst := coarseEstimate s.cfg k }).setMem t.mem

/-! ## Voices and engine -/

/-- V.SETRATE (44_voice_engine.md R190, R191): the period, its reciprocal and the flag of one voice; a voice that does not
exist and a period of 0 are refused. -/
def Obligations.RateSet : Prop :=
  ∀ (s : State) (v : Nat) (p : Word), s.ready →
    (s.hasVoice v = true → 1 ≤ p.toNat →
        exec (.vSetRate v p) s
          = .next ((s.setVoice v { s.voice v with period := p, inc := fdiv fOne (u2f p), rateSet := true }).respond
              .ok []))
    ∧ (s.cfg.nv.toNat ≤ v ∨ p = 0 → exec (.vSetRate v p) s = .next (s.respond .errOperand []))

/-- V.SETWAVE (R192): the staged samples go to the buffer that is not played, and the swap is queued; playback sees
nothing of it. A voice that does not exist and a length out of range are refused. -/
def Obligations.WaveQueued : Prop :=
  ∀ (s : State) (v : Nat) (len : Word), s.ready → s.mem.wf = true →
    (s.hasVoice v = true → 1 ≤ len.toNat → len.toNat ≤ s.cfg.wt.toNat →
      let base := vbufIndex s.cfg.wt.toNat v (!(s.voice v).act) 0
      ∃ t, exec (.vSetWave v len) s = .next (t.respond .ok [])
        ∧ (∀ i, i < len.toNat → t.peek .vbuf (base + i) = s.peek .wstage i)
        ∧ s.sameMemoryBut t (fun sp i => sp = .vbuf ∧ base ≤ i ∧ i < base + len.toNat)
        ∧ t = (s.setMem t.mem).setVoice v { s.voice v with swapLen := len, pending := true, waveSet := true })
    ∧ (s.cfg.nv.toNat ≤ v ∨ len = 0 ∨ s.cfg.wt.toNat < len.toNat →
        exec (.vSetWave v len) s = .next (s.respond .errOperand []))

/-- V.NEXT (R193, R194): the interpolated sample, and the phase advanced; on a wrap past 1.0 the phase loses 1.0 and, only
then, a queued waveform is taken. -/
def Obligations.VoicePlaysAndAdvances : Prop :=
  ∀ (s : State) (v : Nat), s.ready → s.voicePlays v →
    let x := s.voice v
    let sum := fadd x.phase x.inc
    let y : Voice :=
      if fge sum fOne = true then
        (if x.pending = true then
          { x with phase := fsub sum fOne, actLen := x.swapLen, inc := fdiv fOne (u2f x.period), act := !x.act,
                   pending := false }
         else { x with phase := fsub sum fOne })
      else { x with phase := sum }
    exec (.vNext v) s = .next ((s.setVoice v y).respond .ok [s.voiceSample v])

/-- V.NEXT on a voice without a waveform or a rate, or whose position is out of its buffer, is a fault with the voice's
number that changes nothing else; a voice that does not exist is refused (R193, R194). -/
def Obligations.VoiceFaults : Prop :=
  ∀ (s : State) (v : Nat), s.ready →
    (s.hasVoice v = true → (s.voice v).waveSet = false ∨ (s.voice v).rateSet = false →
        exec (.vNext v) s = .next ((s.setFault 4 (u32 v)).respond .fault []))
    ∧ (s.hasVoice v = true → (s.voice v).waveSet = true → (s.voice v).rateSet = true →
        floorU (fmul (s.voice v).phase (u2f (s.voice v).actLen)) (s.voice v).actLen = none →
        exec (.vNext v) s = .next ((s.setFault 5 (u32 v)).respond .fault []))
    ∧ (s.cfg.nv.toNat ≤ v → exec (.vNext v) s = .next (s.respond .errOperand []))

/-- One advance of a voice leaves its phase in `[0, 1)` when the phase before and the increment lie there (R195 (b)). -/
def Obligations.PhaseStaysInUnit : Prop :=
  ∀ v : Voice, inUnit v.phase = true → inUnit v.inc = true → inUnit v.advance.phase = true

/-- A voice whose phase is in `[0, 1)` and whose buffer has 1 to `2^24` cells has its position in the buffer
(R195 (c)). -/
def Obligations.PositionInBuffer : Prop :=
  ∀ (phase : F32) (len : Word), inUnit phase = true → 1 ≤ len.toNat → len.toNat ≤ 2 ^ 24 →
    ∃ i, floorU (fmul phase (u2f len)) len = some i ∧ i < len.toNat

/-- What playback of a voice can read changes only by a commit (R195 (a)): a step that does not exchange the buffers leaves
the active length and every cell of the active buffer; one that does had a swap queued, takes the queued length, and
leaves every cell of the buffer that becomes active. -/
def Obligations.WaveformChangesOnlyAtCommit : Prop :=
  ∀ (s t : State) (v : Nat), Inv s → s.running = true → v < s.cfg.nv.toNat → ¬ s.resetNext → step s = .next t →
    ((t.voice v).act = (s.voice v).act ∧ (t.voice v).actLen = (s.voice v).actLen
      ∨ (t.voice v).act = !(s.voice v).act ∧ (t.voice v).actLen = (s.voice v).swapLen
          ∧ (s.voice v).pending = true ∧ (t.voice v).pending = false)
    ∧ (∀ i, i < (t.voice v).actLen.toNat →
        t.peek .vbuf (vbufIndex s.cfg.wt.toNat v (t.voice v).act i)
          = s.peek .vbuf (vbufIndex s.cfg.wt.toNat v (t.voice v).act i))

/-- ENG.PROC (R196, R197): the tracker, the assignment of a fresh period to the next voice in rotation, then every voice
advanced and the samples mixed in order. -/
def Obligations.EngineMixes : Prop :=
  ∀ (s : State) (x : F32), Inv s → s.ready → (∀ v, v < s.cfg.nv.toNat → (s.tracked x).voicePlays v) →
    exec (.engProc x) s
      = .next (((s.tracked x).advancedTo s.cfg.nv.toNat).respond .ok [(s.tracked x).mixOf s.cfg.nv.toNat])

/-- When a voice cannot play, ENG.PROC records the fault of the lowest such voice; the tracker, the assignment and the
advance of the voices before it stand (R197). -/
def Obligations.EngineFaults : Prop :=
  ∀ (s : State) (x : F32) (j : Nat), Inv s → s.ready → j < s.cfg.nv.toNat →
    (∀ v, v < j → (s.tracked x).voicePlays v) →
    (((s.tracked x).voice j).waveSet = false ∨ ((s.tracked x).voice j).rateSet = false →
      exec (.engProc x) s = .next ((((s.tracked x).advancedTo j).setFault 4 (u32 j)).respond .fault []))
    ∧ (((s.tracked x).voice j).waveSet = true → ((s.tracked x).voice j).rateSet = true →
      floorU ((s.tracked x).voice j).position ((s.tracked x).voice j).actLen = none →
      exec (.engProc x) s = .next ((((s.tracked x).advancedTo j).setFault 5 (u32 j)).respond .fault []))

/-! ## Pipeline -/

/-- PIPE.SMP is ENG.PROC on the state with the sample written into the history and, at a hop boundary in automatic mode
once the history holds a window, the window published, which only ever overwrites (45_pipeline.md R220 to R223). -/
def Obligations.PipeSampleRecords : Prop :=
  ∀ (s : State) (x : F32), Inv s → s.ready →
    let n := s.cfg.win.toNat
    let cap := s.cfg.hist.toNat
    let fill := min (s.pipe.fill.toNat + 1) n
    let boundary := s.pipe.hopCnt.toNat + 1 = s.cfg.hop.toNat
    let publish := boundary ∧ s.ctl.anAuto = true ∧ fill = n
    let h := s.recorded x
    exec (.pipeSmp x) s = exec (.engProc x) h
    ∧ h = ((s.setPipe h.pipe).setWmb h.wmb).setMem h.mem
    ∧ h.pipe.hwr.toNat = (s.pipe.hwr.toNat + 1) % cap
    ∧ h.pipe.fill.toNat = fill
    ∧ (boundary → h.pipe.hopCnt = 0)
    ∧ (¬ boundary → h.pipe.hopCnt.toNat = s.pipe.hopCnt.toNat + 1)
    ∧ h.peek .hist s.pipe.hwr.toNat = x
    ∧ (publish → h.wmb = { full := true, drop := if s.wmb.full then satInc s.wmb.drop else s.wmb.drop }
        ∧ ∀ i, i < n → h.peek .wmb i = h.peek .hist ((h.pipe.hwr.toNat + cap - n + i) % cap))
    ∧ (¬ publish → h.wmb = s.wmb ∧ ∀ i, h.peek .wmb i = s.peek .wmb i)
    ∧ s.sameMemoryBut h (fun sp i => (sp = .hist ∧ i = s.pipe.hwr.toNat) ∨ (sp = .wmb ∧ i < n))

/-- PIPE.SMP completes when every voice can play, with the state and the sample of R220 (R223). -/
def Obligations.PipeSampleCompletes : Prop :=
  ∀ (s : State) (x : F32), Inv s → s.ready →
    let r := s.sampleReady x
    (∀ v, v < s.cfg.nv.toNat → r.voicePlays v) →
    exec (.pipeSmp x) s = .next ((r.advancedTo s.cfg.nv.toNat).respond .ok [r.mixOf s.cfg.nv.toNat])

/-- PIPE.BLK (R224, R226): the control values polled, then every sample of the input block in order, each result into the
output block. When every voice can play at every sample it completes and leaves the input block; else the first voice
that cannot, at the first sample at which one cannot, is the fault recorded, and what was done before stands: the output
block holds the results of the samples before. -/
def Obligations.BlockProcessed : Prop :=
  ∀ s : State, Inv s → s.ready →
    let cur := if s.ctrl.present = true then { s.ctrl with present := false, cur := s.ctrl.mb } else s.ctrl
    let u := fun n => (s.setCtrl cur).afterSamples n
    let r := fun n => (u n).sampleReady ((u n).peek .inBuf n)
    let plays := fun n => ∀ v, v < s.cfg.nv.toNat → (r n).voicePlays v
    ((∀ n, n < s.cfg.block.toNat → plays n) →
        exec .pipeBlk s = .next ((u s.cfg.block.toNat).respond .ok [])
        ∧ (u s.cfg.block.toNat).ctrl = cur
        ∧ ∀ i, (u s.cfg.block.toNat).peek .inBuf i = s.peek .inBuf i)
    ∧ (∀ n w : Nat, n < s.cfg.block.toNat → (∀ m, m < n → plays m) → w < s.cfg.nv.toNat →
        (∀ v, v < w → (r n).voicePlays v) →
        (((r n).voice w).waveSet = false ∨ ((r n).voice w).rateSet = false →
          exec .pipeBlk s = .next ((((r n).advancedTo w).setFault 4 (u32 w)).respond .fault []))
        ∧ (((r n).voice w).waveSet = true → ((r n).voice w).rateSet = true →
          floorU ((r n).voice w).position ((r n).voice w).actLen = none →
          exec .pipeBlk s = .next ((((r n).advancedTo w).setFault 5 (u32 w)).respond .fault []))
        ∧ ∀ i, ((r n).advancedTo w).peek .outBuf i = (u n).peek .outBuf i)

/-- CTICK overwrites the control mailbox; FPOLL takes the estimate if there is one, and its value stays readable (R225,
R228). -/
def Obligations.ControlAndFrequencyMailboxes : Prop :=
  ∀ s : State, s.ready →
    (∀ c0 c1 c2 c3 : F32, exec (.ctick c0 c1 c2 c3) s
      = .next ((s.setCtrl { s.ctrl with mb := { c0 := c0, c1 := c1, c2 := c2, c3 := c3 }, present := true }).respond
          .ok []))
    ∧ (s.freq.present = true →
        exec .fpoll s = .next ((s.setFreq { s.freq with present := false }).respond .ok [1, s.freq.value]))
    ∧ (s.freq.present = false → exec .fpoll s = .next (s.respond .ok [0, pzero]))

/-- What the voice, engine and pipeline commands leave alone, however they end (R190 to R197, R220 to R225): memory but for
the buffers named, and the registers of every unit they do not contain. -/
def Obligations.PlaybackFrame : Prop :=
  ∀ (s t : State) (v : Nat) (w x : Word),
    (exec (.vSetRate v w) s = .next t → s.sameMemory t ∧
      s.sameRegistersBut t (fun r => r ∈ [.voice v .inc, .voice v .period, .voice v .flags]))
    ∧ (exec (.vSetWave v w) s = .next t → s.sameMemoryBut t (fun sp _ => sp = .vbuf) ∧
      s.sameRegistersBut t (fun r => r ∈ [.voice v .swapLen, .voice v .flags]))
    ∧ (exec (.vNext v) s = .next t → s.sameMemory t ∧
      s.sameRegistersBut t (fun r => r ∈ [.voice v .phase, .voice v .inc, .voice v .actLen, .voice v .flags,
        .fault, .faultInfo, .status]))
    ∧ (exec (.engProc x) s = .next t → s.sameMemoryBut t (fun sp i => sp = .ring ∧ i = s.ct.wr.toNat) ∧
      s.sameRegistersBut t Reg.writtenByEngine)
    ∧ (exec (.pipeSmp x) s = .next t →
      s.sameMemoryBut t (fun sp i =>
        (sp = .ring ∧ i = s.ct.wr.toNat) ∨ (sp = .hist ∧ i = s.pipe.hwr.toNat) ∨ sp = .wmb) ∧
      s.sameRegistersBut t (fun r => r.writtenByEngine ∨ r ∈ [.pipeHwr, .pipeHopCnt, .pipeFill, .wdrop]))
    ∧ (exec .pipeBlk s = .next t → s.sameMemoryBut t (fun sp _ => sp ∈ [.ring, .hist, .wmb, .outBuf]) ∧
      s.sameRegistersBut t (fun r => r.writtenByEngine
        ∨ r ∈ [.pipeHwr, .pipeHopCnt, .pipeFill, .wdrop, .ctrlCur0, .ctrlCur1, .ctrlCur2, .ctrlCur3]))

/-! ## The analyzer agent -/

/-- AN_TAKE (R229): the window into the work buffer, the slot empty, the analyzer busy, nothing else. -/
def Obligations.AgentTakesWindow : Prop :=
  ∀ s : State, s.mem.wf = true → s.analyzerNext → s.running = true → s.fault = 0 → s.ctl.anAuto = true →
    s.wmb.full = true → s.an.busy = false →
    ∃ t, step s = .next t
      ∧ (∀ i, i < s.cfg.win.toNat → t.peek .anRe i = s.peek .wmb i)
      ∧ s.sameMemoryBut t (fun sp i => sp = .anRe ∧ i < s.cfg.win.toNat)
      ∧ t = ((((s.endTurn s.port).setMem t.mem).setWmb { s.wmb with full := false }).setAn { s.an with busy := true })

/-- AN_RUN (R230): the estimate is published but for the first, which only primes the analyzer; when the refinement does
not converge the fault is recorded and the analyzer stays busy. -/
def Obligations.AgentRunsAnalysis : Prop :=
  ∀ (s u : State) (k : Nat), Inv s → s.analyzerNext → s.running = true → s.fault = 0 → s.an.busy = true →
    anTransform s = .ok () u → u.peakBin k →
    ∃ t, step s = .next t
      ∧ (∀ b, b < s.cfg.win.toNat / 2 → t.peek .anPhase b = u.binPhase b)
      ∧ u.sameMemoryBut t (fun sp _ => sp = .anPhase)
      ∧ (∀ f, s.estimate u k = some f →
          t = ((((s.endTurn s.port).setMem t.mem).setAn
                { k := u32 k, fEst := coarseEstimate s.cfg k, busy := false, primed := true }).setFreq
                (if s.an.primed = true then { value := f, present := true } else s.freq)))
      ∧ (s.estimate u k = none →
          t = ((((s.endTurn s.port).setMem t.mem).setAn
                { s.an with k := u32 k, fEst := coarseEstimate s.cfg k }).setFault 6 (u32 k)))

/-- With nothing left to do on the port and no turn fixed, the analyzer agent comes to rest in at most three steps
(R295). That the idle turns are the analyzer agent's is the model's choice (log 2). -/
def Obligations.AgentComesToRest : Prop :=
  ∀ s : State, Inv s → s.port = [] → s.sched = [] →
    ∃ n t, n ≤ 3 ∧ Sys2Proof.core.run n s = .next t ∧ t.quiescent

/-- The audio path never depends on the analyzer: two states that differ only in what the analyzer agent writes stay so
under every command of the audio path, and answer alike; and a step of the analyzer agent that records no fault touches
nothing else (R262; 45_pipeline.md R220). -/
def Obligations.AudioIgnoresAnalyzer : Prop :=
  (∀ (i : Instr) (s s' t : State), onAudioPath i = true → s.audioPart = s'.audioPart → exec i s = .next t →
    ∃ t', exec i s' = .next t' ∧ t'.audioPart = t.audioPart)
  ∧ (∀ s t : State, analyzerTurn s = .next t → t.fault = s.fault → t.audioPart = s.audioPart)

/-! ## Reset and the invariant -/

/-- After reset every register reads 0 and no memory exists (10_state.md R50, 70_reset_and_hazards.md R281). -/
def Obligations.ResetValues : Prop :=
  (∀ r : Reg, State.reset.regWord r = 0) ∧ (∀ sp : Space, State.reset.spaceSize sp = 0)

/-- The invariant holds after reset. -/
def Obligations.ResetHasInvariant : Prop := Inv State.reset

/-- Every step keeps the invariant: the memories stay canonical and within their sizes, the tables stay as INIT wrote them,
every index stays below its capacity, every active length stays legal, and the fault code stays one of the six. -/
def Obligations.StepKeepsInvariant : Prop := ∀ s t : State, Inv s → step s = .next t → Inv t

/-- In a state with the invariant the machine never stops: every step answers a next state. -/
def Obligations.StepNeverStops : Prop := ∀ s : State, Inv s → ∃ t, step s = .next t
end

