-- ==== Sys2Proof/Laws/State.lean ====
section
/-! SUPPORT. What each named update of the state does to each field: one lemma per field per update, true by rfl. -/

namespace Sys2Proof.Machine

section setCfg
variable (s : State) (x : Cfg)
@[simp] theorem State.setCfg_cfg : (s.setCfg x).cfg = x := rfl
@[simp] theorem State.setCfg_lpf : (s.setCfg x).lpf = s.lpf := rfl
@[simp] theorem State.setCfg_env0 : (s.setCfg x).env0 = s.env0 := rfl
@[simp] theorem State.setCfg_env1 : (s.setCfg x).env1 = s.env1 := rfl
@[simp] theorem State.setCfg_ctl : (s.setCfg x).ctl = s.ctl := rfl
@[simp] theorem State.setCfg_zdPrev : (s.setCfg x).zdPrev = s.zdPrev := rfl
@[simp] theorem State.setCfg_cd : (s.setCfg x).cd = s.cd := rfl
@[simp] theorem State.setCfg_ct : (s.setCfg x).ct = s.ct := rfl
@[simp] theorem State.setCfg_an : (s.setCfg x).an = s.an := rfl
@[simp] theorem State.setCfg_voices : (s.setCfg x).voices = s.voices := rfl
@[simp] theorem State.setCfg_eng : (s.setCfg x).eng = s.eng := rfl
@[simp] theorem State.setCfg_pipe : (s.setCfg x).pipe = s.pipe := rfl
@[simp] theorem State.setCfg_wmb : (s.setCfg x).wmb = s.wmb := rfl
@[simp] theorem State.setCfg_freq : (s.setCfg x).freq = s.freq := rfl
@[simp] theorem State.setCfg_ctrl : (s.setCfg x).ctrl = s.ctrl := rfl
@[simp] theorem State.setCfg_running : (s.setCfg x).running = s.running := rfl
@[simp] theorem State.setCfg_fault : (s.setCfg x).fault = s.fault := rfl
@[simp] theorem State.setCfg_faultInfo : (s.setCfg x).faultInfo = s.faultInfo := rfl
@[simp] theorem State.setCfg_mem : (s.setCfg x).mem = s.mem := rfl
@[simp] theorem State.setCfg_arenaCap : (s.setCfg x).arenaCap = s.arenaCap := rfl
@[simp] theorem State.setCfg_port : (s.setCfg x).port = s.port := rfl
@[simp] theorem State.setCfg_sched : (s.setCfg x).sched = s.sched := rfl
@[simp] theorem State.setCfg_resp : (s.setCfg x).resp = s.resp := rfl
end setCfg

section setLpf
variable (s : State) (x : Lpf)
@[simp] theorem State.setLpf_cfg : (s.setLpf x).cfg = s.cfg := rfl
@[simp] theorem State.setLpf_lpf : (s.setLpf x).lpf = x := rfl
@[simp] theorem State.setLpf_env0 : (s.setLpf x).env0 = s.env0 := rfl
@[simp] theorem State.setLpf_env1 : (s.setLpf x).env1 = s.env1 := rfl
@[simp] theorem State.setLpf_ctl : (s.setLpf x).ctl = s.ctl := rfl
@[simp] theorem State.setLpf_zdPrev : (s.setLpf x).zdPrev = s.zdPrev := rfl
@[simp] theorem State.setLpf_cd : (s.setLpf x).cd = s.cd := rfl
@[simp] theorem State.setLpf_ct : (s.setLpf x).ct = s.ct := rfl
@[simp] theorem State.setLpf_an : (s.setLpf x).an = s.an := rfl
@[simp] theorem State.setLpf_voices : (s.setLpf x).voices = s.voices := rfl
@[simp] theorem State.setLpf_eng : (s.setLpf x).eng = s.eng := rfl
@[simp] theorem State.setLpf_pipe : (s.setLpf x).pipe = s.pipe := rfl
@[simp] theorem State.setLpf_wmb : (s.setLpf x).wmb = s.wmb := rfl
@[simp] theorem State.setLpf_freq : (s.setLpf x).freq = s.freq := rfl
@[simp] theorem State.setLpf_ctrl : (s.setLpf x).ctrl = s.ctrl := rfl
@[simp] theorem State.setLpf_running : (s.setLpf x).running = s.running := rfl
@[simp] theorem State.setLpf_fault : (s.setLpf x).fault = s.fault := rfl
@[simp] theorem State.setLpf_faultInfo : (s.setLpf x).faultInfo = s.faultInfo := rfl
@[simp] theorem State.setLpf_mem : (s.setLpf x).mem = s.mem := rfl
@[simp] theorem State.setLpf_arenaCap : (s.setLpf x).arenaCap = s.arenaCap := rfl
@[simp] theorem State.setLpf_port : (s.setLpf x).port = s.port := rfl
@[simp] theorem State.setLpf_sched : (s.setLpf x).sched = s.sched := rfl
@[simp] theorem State.setLpf_resp : (s.setLpf x).resp = s.resp := rfl
end setLpf

section setEnv0
variable (s : State) (x : Env)
@[simp] theorem State.setEnv0_cfg : (s.setEnv0 x).cfg = s.cfg := rfl
@[simp] theorem State.setEnv0_lpf : (s.setEnv0 x).lpf = s.lpf := rfl
@[simp] theorem State.setEnv0_env0 : (s.setEnv0 x).env0 = x := rfl
@[simp] theorem State.setEnv0_env1 : (s.setEnv0 x).env1 = s.env1 := rfl
@[simp] theorem State.setEnv0_ctl : (s.setEnv0 x).ctl = s.ctl := rfl
@[simp] theorem State.setEnv0_zdPrev : (s.setEnv0 x).zdPrev = s.zdPrev := rfl
@[simp] theorem State.setEnv0_cd : (s.setEnv0 x).cd = s.cd := rfl
@[simp] theorem State.setEnv0_ct : (s.setEnv0 x).ct = s.ct := rfl
@[simp] theorem State.setEnv0_an : (s.setEnv0 x).an = s.an := rfl
@[simp] theorem State.setEnv0_voices : (s.setEnv0 x).voices = s.voices := rfl
@[simp] theorem State.setEnv0_eng : (s.setEnv0 x).eng = s.eng := rfl
@[simp] theorem State.setEnv0_pipe : (s.setEnv0 x).pipe = s.pipe := rfl
@[simp] theorem State.setEnv0_wmb : (s.setEnv0 x).wmb = s.wmb := rfl
@[simp] theorem State.setEnv0_freq : (s.setEnv0 x).freq = s.freq := rfl
@[simp] theorem State.setEnv0_ctrl : (s.setEnv0 x).ctrl = s.ctrl := rfl
@[simp] theorem State.setEnv0_running : (s.setEnv0 x).running = s.running := rfl
@[simp] theorem State.setEnv0_fault : (s.setEnv0 x).fault = s.fault := rfl
@[simp] theorem State.setEnv0_faultInfo : (s.setEnv0 x).faultInfo = s.faultInfo := rfl
@[simp] theorem State.setEnv0_mem : (s.setEnv0 x).mem = s.mem := rfl
@[simp] theorem State.setEnv0_arenaCap : (s.setEnv0 x).arenaCap = s.arenaCap := rfl
@[simp] theorem State.setEnv0_port : (s.setEnv0 x).port = s.port := rfl
@[simp] theorem State.setEnv0_sched : (s.setEnv0 x).sched = s.sched := rfl
@[simp] theorem State.setEnv0_resp : (s.setEnv0 x).resp = s.resp := rfl
end setEnv0

section setEnv1
variable (s : State) (x : Env)
@[simp] theorem State.setEnv1_cfg : (s.setEnv1 x).cfg = s.cfg := rfl
@[simp] theorem State.setEnv1_lpf : (s.setEnv1 x).lpf = s.lpf := rfl
@[simp] theorem State.setEnv1_env0 : (s.setEnv1 x).env0 = s.env0 := rfl
@[simp] theorem State.setEnv1_env1 : (s.setEnv1 x).env1 = x := rfl
@[simp] theorem State.setEnv1_ctl : (s.setEnv1 x).ctl = s.ctl := rfl
@[simp] theorem State.setEnv1_zdPrev : (s.setEnv1 x).zdPrev = s.zdPrev := rfl
@[simp] theorem State.setEnv1_cd : (s.setEnv1 x).cd = s.cd := rfl
@[simp] theorem State.setEnv1_ct : (s.setEnv1 x).ct = s.ct := rfl
@[simp] theorem State.setEnv1_an : (s.setEnv1 x).an = s.an := rfl
@[simp] theorem State.setEnv1_voices : (s.setEnv1 x).voices = s.voices := rfl
@[simp] theorem State.setEnv1_eng : (s.setEnv1 x).eng = s.eng := rfl
@[simp] theorem State.setEnv1_pipe : (s.setEnv1 x).pipe = s.pipe := rfl
@[simp] theorem State.setEnv1_wmb : (s.setEnv1 x).wmb = s.wmb := rfl
@[simp] theorem State.setEnv1_freq : (s.setEnv1 x).freq = s.freq := rfl
@[simp] theorem State.setEnv1_ctrl : (s.setEnv1 x).ctrl = s.ctrl := rfl
@[simp] theorem State.setEnv1_running : (s.setEnv1 x).running = s.running := rfl
@[simp] theorem State.setEnv1_fault : (s.setEnv1 x).fault = s.fault := rfl
@[simp] theorem State.setEnv1_faultInfo : (s.setEnv1 x).faultInfo = s.faultInfo := rfl
@[simp] theorem State.setEnv1_mem : (s.setEnv1 x).mem = s.mem := rfl
@[simp] theorem State.setEnv1_arenaCap : (s.setEnv1 x).arenaCap = s.arenaCap := rfl
@[simp] theorem State.setEnv1_port : (s.setEnv1 x).port = s.port := rfl
@[simp] theorem State.setEnv1_sched : (s.setEnv1 x).sched = s.sched := rfl
@[simp] theorem State.setEnv1_resp : (s.setEnv1 x).resp = s.resp := rfl
end setEnv1

section setCtl
variable (s : State) (x : Ctl)
@[simp] theorem State.setCtl_cfg : (s.setCtl x).cfg = s.cfg := rfl
@[simp] theorem State.setCtl_lpf : (s.setCtl x).lpf = s.lpf := rfl
@[simp] theorem State.setCtl_env0 : (s.setCtl x).env0 = s.env0 := rfl
@[simp] theorem State.setCtl_env1 : (s.setCtl x).env1 = s.env1 := rfl
@[simp] theorem State.setCtl_ctl : (s.setCtl x).ctl = x := rfl
@[simp] theorem State.setCtl_zdPrev : (s.setCtl x).zdPrev = s.zdPrev := rfl
@[simp] theorem State.setCtl_cd : (s.setCtl x).cd = s.cd := rfl
@[simp] theorem State.setCtl_ct : (s.setCtl x).ct = s.ct := rfl
@[simp] theorem State.setCtl_an : (s.setCtl x).an = s.an := rfl
@[simp] theorem State.setCtl_voices : (s.setCtl x).voices = s.voices := rfl
@[simp] theorem State.setCtl_eng : (s.setCtl x).eng = s.eng := rfl
@[simp] theorem State.setCtl_pipe : (s.setCtl x).pipe = s.pipe := rfl
@[simp] theorem State.setCtl_wmb : (s.setCtl x).wmb = s.wmb := rfl
@[simp] theorem State.setCtl_freq : (s.setCtl x).freq = s.freq := rfl
@[simp] theorem State.setCtl_ctrl : (s.setCtl x).ctrl = s.ctrl := rfl
@[simp] theorem State.setCtl_running : (s.setCtl x).running = s.running := rfl
@[simp] theorem State.setCtl_fault : (s.setCtl x).fault = s.fault := rfl
@[simp] theorem State.setCtl_faultInfo : (s.setCtl x).faultInfo = s.faultInfo := rfl
@[simp] theorem State.setCtl_mem : (s.setCtl x).mem = s.mem := rfl
@[simp] theorem State.setCtl_arenaCap : (s.setCtl x).arenaCap = s.arenaCap := rfl
@[simp] theorem State.setCtl_port : (s.setCtl x).port = s.port := rfl
@[simp] theorem State.setCtl_sched : (s.setCtl x).sched = s.sched := rfl
@[simp] theorem State.setCtl_resp : (s.setCtl x).resp = s.resp := rfl
end setCtl

section setZdPrev
variable (s : State) (x : F32)
@[simp] theorem State.setZdPrev_cfg : (s.setZdPrev x).cfg = s.cfg := rfl
@[simp] theorem State.setZdPrev_lpf : (s.setZdPrev x).lpf = s.lpf := rfl
@[simp] theorem State.setZdPrev_env0 : (s.setZdPrev x).env0 = s.env0 := rfl
@[simp] theorem State.setZdPrev_env1 : (s.setZdPrev x).env1 = s.env1 := rfl
@[simp] theorem State.setZdPrev_ctl : (s.setZdPrev x).ctl = s.ctl := rfl
@[simp] theorem State.setZdPrev_zdPrev : (s.setZdPrev x).zdPrev = x := rfl
@[simp] theorem State.setZdPrev_cd : (s.setZdPrev x).cd = s.cd := rfl
@[simp] theorem State.setZdPrev_ct : (s.setZdPrev x).ct = s.ct := rfl
@[simp] theorem State.setZdPrev_an : (s.setZdPrev x).an = s.an := rfl
@[simp] theorem State.setZdPrev_voices : (s.setZdPrev x).voices = s.voices := rfl
@[simp] theorem State.setZdPrev_eng : (s.setZdPrev x).eng = s.eng := rfl
@[simp] theorem State.setZdPrev_pipe : (s.setZdPrev x).pipe = s.pipe := rfl
@[simp] theorem State.setZdPrev_wmb : (s.setZdPrev x).wmb = s.wmb := rfl
@[simp] theorem State.setZdPrev_freq : (s.setZdPrev x).freq = s.freq := rfl
@[simp] theorem State.setZdPrev_ctrl : (s.setZdPrev x).ctrl = s.ctrl := rfl
@[simp] theorem State.setZdPrev_running : (s.setZdPrev x).running = s.running := rfl
@[simp] theorem State.setZdPrev_fault : (s.setZdPrev x).fault = s.fault := rfl
@[simp] theorem State.setZdPrev_faultInfo : (s.setZdPrev x).faultInfo = s.faultInfo := rfl
@[simp] theorem State.setZdPrev_mem : (s.setZdPrev x).mem = s.mem := rfl
@[simp] theorem State.setZdPrev_arenaCap : (s.setZdPrev x).arenaCap = s.arenaCap := rfl
@[simp] theorem State.setZdPrev_port : (s.setZdPrev x).port = s.port := rfl
@[simp] theorem State.setZdPrev_sched : (s.setZdPrev x).sched = s.sched := rfl
@[simp] theorem State.setZdPrev_resp : (s.setZdPrev x).resp = s.resp := rfl
end setZdPrev

section setCd
variable (s : State) (x : Cd)
@[simp] theorem State.setCd_cfg : (s.setCd x).cfg = s.cfg := rfl
@[simp] theorem State.setCd_lpf : (s.setCd x).lpf = s.lpf := rfl
@[simp] theorem State.setCd_env0 : (s.setCd x).env0 = s.env0 := rfl
@[simp] theorem State.setCd_env1 : (s.setCd x).env1 = s.env1 := rfl
@[simp] theorem State.setCd_ctl : (s.setCd x).ctl = s.ctl := rfl
@[simp] theorem State.setCd_zdPrev : (s.setCd x).zdPrev = s.zdPrev := rfl
@[simp] theorem State.setCd_cd : (s.setCd x).cd = x := rfl
@[simp] theorem State.setCd_ct : (s.setCd x).ct = s.ct := rfl
@[simp] theorem State.setCd_an : (s.setCd x).an = s.an := rfl
@[simp] theorem State.setCd_voices : (s.setCd x).voices = s.voices := rfl
@[simp] theorem State.setCd_eng : (s.setCd x).eng = s.eng := rfl
@[simp] theorem State.setCd_pipe : (s.setCd x).pipe = s.pipe := rfl
@[simp] theorem State.setCd_wmb : (s.setCd x).wmb = s.wmb := rfl
@[simp] theorem State.setCd_freq : (s.setCd x).freq = s.freq := rfl
@[simp] theorem State.setCd_ctrl : (s.setCd x).ctrl = s.ctrl := rfl
@[simp] theorem State.setCd_running : (s.setCd x).running = s.running := rfl
@[simp] theorem State.setCd_fault : (s.setCd x).fault = s.fault := rfl
@[simp] theorem State.setCd_faultInfo : (s.setCd x).faultInfo = s.faultInfo := rfl
@[simp] theorem State.setCd_mem : (s.setCd x).mem = s.mem := rfl
@[simp] theorem State.setCd_arenaCap : (s.setCd x).arenaCap = s.arenaCap := rfl
@[simp] theorem State.setCd_port : (s.setCd x).port = s.port := rfl
@[simp] theorem State.setCd_sched : (s.setCd x).sched = s.sched := rfl
@[simp] theorem State.setCd_resp : (s.setCd x).resp = s.resp := rfl
end setCd

section setCt
variable (s : State) (x : Ct)
@[simp] theorem State.setCt_cfg : (s.setCt x).cfg = s.cfg := rfl
@[simp] theorem State.setCt_lpf : (s.setCt x).lpf = s.lpf := rfl
@[simp] theorem State.setCt_env0 : (s.setCt x).env0 = s.env0 := rfl
@[simp] theorem State.setCt_env1 : (s.setCt x).env1 = s.env1 := rfl
@[simp] theorem State.setCt_ctl : (s.setCt x).ctl = s.ctl := rfl
@[simp] theorem State.setCt_zdPrev : (s.setCt x).zdPrev = s.zdPrev := rfl
@[simp] theorem State.setCt_cd : (s.setCt x).cd = s.cd := rfl
@[simp] theorem State.setCt_ct : (s.setCt x).ct = x := rfl
@[simp] theorem State.setCt_an : (s.setCt x).an = s.an := rfl
@[simp] theorem State.setCt_voices : (s.setCt x).voices = s.voices := rfl
@[simp] theorem State.setCt_eng : (s.setCt x).eng = s.eng := rfl
@[simp] theorem State.setCt_pipe : (s.setCt x).pipe = s.pipe := rfl
@[simp] theorem State.setCt_wmb : (s.setCt x).wmb = s.wmb := rfl
@[simp] theorem State.setCt_freq : (s.setCt x).freq = s.freq := rfl
@[simp] theorem State.setCt_ctrl : (s.setCt x).ctrl = s.ctrl := rfl
@[simp] theorem State.setCt_running : (s.setCt x).running = s.running := rfl
@[simp] theorem State.setCt_fault : (s.setCt x).fault = s.fault := rfl
@[simp] theorem State.setCt_faultInfo : (s.setCt x).faultInfo = s.faultInfo := rfl
@[simp] theorem State.setCt_mem : (s.setCt x).mem = s.mem := rfl
@[simp] theorem State.setCt_arenaCap : (s.setCt x).arenaCap = s.arenaCap := rfl
@[simp] theorem State.setCt_port : (s.setCt x).port = s.port := rfl
@[simp] theorem State.setCt_sched : (s.setCt x).sched = s.sched := rfl
@[simp] theorem State.setCt_resp : (s.setCt x).resp = s.resp := rfl
end setCt

section setAn
variable (s : State) (x : An)
@[simp] theorem State.setAn_cfg : (s.setAn x).cfg = s.cfg := rfl
@[simp] theorem State.setAn_lpf : (s.setAn x).lpf = s.lpf := rfl
@[simp] theorem State.setAn_env0 : (s.setAn x).env0 = s.env0 := rfl
@[simp] theorem State.setAn_env1 : (s.setAn x).env1 = s.env1 := rfl
@[simp] theorem State.setAn_ctl : (s.setAn x).ctl = s.ctl := rfl
@[simp] theorem State.setAn_zdPrev : (s.setAn x).zdPrev = s.zdPrev := rfl
@[simp] theorem State.setAn_cd : (s.setAn x).cd = s.cd := rfl
@[simp] theorem State.setAn_ct : (s.setAn x).ct = s.ct := rfl
@[simp] theorem State.setAn_an : (s.setAn x).an = x := rfl
@[simp] theorem State.setAn_voices : (s.setAn x).voices = s.voices := rfl
@[simp] theorem State.setAn_eng : (s.setAn x).eng = s.eng := rfl
@[simp] theorem State.setAn_pipe : (s.setAn x).pipe = s.pipe := rfl
@[simp] theorem State.setAn_wmb : (s.setAn x).wmb = s.wmb := rfl
@[simp] theorem State.setAn_freq : (s.setAn x).freq = s.freq := rfl
@[simp] theorem State.setAn_ctrl : (s.setAn x).ctrl = s.ctrl := rfl
@[simp] theorem State.setAn_running : (s.setAn x).running = s.running := rfl
@[simp] theorem State.setAn_fault : (s.setAn x).fault = s.fault := rfl
@[simp] theorem State.setAn_faultInfo : (s.setAn x).faultInfo = s.faultInfo := rfl
@[simp] theorem State.setAn_mem : (s.setAn x).mem = s.mem := rfl
@[simp] theorem State.setAn_arenaCap : (s.setAn x).arenaCap = s.arenaCap := rfl
@[simp] theorem State.setAn_port : (s.setAn x).port = s.port := rfl
@[simp] theorem State.setAn_sched : (s.setAn x).sched = s.sched := rfl
@[simp] theorem State.setAn_resp : (s.setAn x).resp = s.resp := rfl
end setAn

section setVoices
variable (s : State) (x : Vector Voice 256)
@[simp] theorem State.setVoices_cfg : (s.setVoices x).cfg = s.cfg := rfl
@[simp] theorem State.setVoices_lpf : (s.setVoices x).lpf = s.lpf := rfl
@[simp] theorem State.setVoices_env0 : (s.setVoices x).env0 = s.env0 := rfl
@[simp] theorem State.setVoices_env1 : (s.setVoices x).env1 = s.env1 := rfl
@[simp] theorem State.setVoices_ctl : (s.setVoices x).ctl = s.ctl := rfl
@[simp] theorem State.setVoices_zdPrev : (s.setVoices x).zdPrev = s.zdPrev := rfl
@[simp] theorem State.setVoices_cd : (s.setVoices x).cd = s.cd := rfl
@[simp] theorem State.setVoices_ct : (s.setVoices x).ct = s.ct := rfl
@[simp] theorem State.setVoices_an : (s.setVoices x).an = s.an := rfl
@[simp] theorem State.setVoices_voices : (s.setVoices x).voices = x := rfl
@[simp] theorem State.setVoices_eng : (s.setVoices x).eng = s.eng := rfl
@[simp] theorem State.setVoices_pipe : (s.setVoices x).pipe = s.pipe := rfl
@[simp] theorem State.setVoices_wmb : (s.setVoices x).wmb = s.wmb := rfl
@[simp] theorem State.setVoices_freq : (s.setVoices x).freq = s.freq := rfl
@[simp] theorem State.setVoices_ctrl : (s.setVoices x).ctrl = s.ctrl := rfl
@[simp] theorem State.setVoices_running : (s.setVoices x).running = s.running := rfl
@[simp] theorem State.setVoices_fault : (s.setVoices x).fault = s.fault := rfl
@[simp] theorem State.setVoices_faultInfo : (s.setVoices x).faultInfo = s.faultInfo := rfl
@[simp] theorem State.setVoices_mem : (s.setVoices x).mem = s.mem := rfl
@[simp] theorem State.setVoices_arenaCap : (s.setVoices x).arenaCap = s.arenaCap := rfl
@[simp] theorem State.setVoices_port : (s.setVoices x).port = s.port := rfl
@[simp] theorem State.setVoices_sched : (s.setVoices x).sched = s.sched := rfl
@[simp] theorem State.setVoices_resp : (s.setVoices x).resp = s.resp := rfl
end setVoices

section setEng
variable (s : State) (x : Eng)
@[simp] theorem State.setEng_cfg : (s.setEng x).cfg = s.cfg := rfl
@[simp] theorem State.setEng_lpf : (s.setEng x).lpf = s.lpf := rfl
@[simp] theorem State.setEng_env0 : (s.setEng x).env0 = s.env0 := rfl
@[simp] theorem State.setEng_env1 : (s.setEng x).env1 = s.env1 := rfl
@[simp] theorem State.setEng_ctl : (s.setEng x).ctl = s.ctl := rfl
@[simp] theorem State.setEng_zdPrev : (s.setEng x).zdPrev = s.zdPrev := rfl
@[simp] theorem State.setEng_cd : (s.setEng x).cd = s.cd := rfl
@[simp] theorem State.setEng_ct : (s.setEng x).ct = s.ct := rfl
@[simp] theorem State.setEng_an : (s.setEng x).an = s.an := rfl
@[simp] theorem State.setEng_voices : (s.setEng x).voices = s.voices := rfl
@[simp] theorem State.setEng_eng : (s.setEng x).eng = x := rfl
@[simp] theorem State.setEng_pipe : (s.setEng x).pipe = s.pipe := rfl
@[simp] theorem State.setEng_wmb : (s.setEng x).wmb = s.wmb := rfl
@[simp] theorem State.setEng_freq : (s.setEng x).freq = s.freq := rfl
@[simp] theorem State.setEng_ctrl : (s.setEng x).ctrl = s.ctrl := rfl
@[simp] theorem State.setEng_running : (s.setEng x).running = s.running := rfl
@[simp] theorem State.setEng_fault : (s.setEng x).fault = s.fault := rfl
@[simp] theorem State.setEng_faultInfo : (s.setEng x).faultInfo = s.faultInfo := rfl
@[simp] theorem State.setEng_mem : (s.setEng x).mem = s.mem := rfl
@[simp] theorem State.setEng_arenaCap : (s.setEng x).arenaCap = s.arenaCap := rfl
@[simp] theorem State.setEng_port : (s.setEng x).port = s.port := rfl
@[simp] theorem State.setEng_sched : (s.setEng x).sched = s.sched := rfl
@[simp] theorem State.setEng_resp : (s.setEng x).resp = s.resp := rfl
end setEng

section setPipe
variable (s : State) (x : Pipe)
@[simp] theorem State.setPipe_cfg : (s.setPipe x).cfg = s.cfg := rfl
@[simp] theorem State.setPipe_lpf : (s.setPipe x).lpf = s.lpf := rfl
@[simp] theorem State.setPipe_env0 : (s.setPipe x).env0 = s.env0 := rfl
@[simp] theorem State.setPipe_env1 : (s.setPipe x).env1 = s.env1 := rfl
@[simp] theorem State.setPipe_ctl : (s.setPipe x).ctl = s.ctl := rfl
@[simp] theorem State.setPipe_zdPrev : (s.setPipe x).zdPrev = s.zdPrev := rfl
@[simp] theorem State.setPipe_cd : (s.setPipe x).cd = s.cd := rfl
@[simp] theorem State.setPipe_ct : (s.setPipe x).ct = s.ct := rfl
@[simp] theorem State.setPipe_an : (s.setPipe x).an = s.an := rfl
@[simp] theorem State.setPipe_voices : (s.setPipe x).voices = s.voices := rfl
@[simp] theorem State.setPipe_eng : (s.setPipe x).eng = s.eng := rfl
@[simp] theorem State.setPipe_pipe : (s.setPipe x).pipe = x := rfl
@[simp] theorem State.setPipe_wmb : (s.setPipe x).wmb = s.wmb := rfl
@[simp] theorem State.setPipe_freq : (s.setPipe x).freq = s.freq := rfl
@[simp] theorem State.setPipe_ctrl : (s.setPipe x).ctrl = s.ctrl := rfl
@[simp] theorem State.setPipe_running : (s.setPipe x).running = s.running := rfl
@[simp] theorem State.setPipe_fault : (s.setPipe x).fault = s.fault := rfl
@[simp] theorem State.setPipe_faultInfo : (s.setPipe x).faultInfo = s.faultInfo := rfl
@[simp] theorem State.setPipe_mem : (s.setPipe x).mem = s.mem := rfl
@[simp] theorem State.setPipe_arenaCap : (s.setPipe x).arenaCap = s.arenaCap := rfl
@[simp] theorem State.setPipe_port : (s.setPipe x).port = s.port := rfl
@[simp] theorem State.setPipe_sched : (s.setPipe x).sched = s.sched := rfl
@[simp] theorem State.setPipe_resp : (s.setPipe x).resp = s.resp := rfl
end setPipe

section setWmb
variable (s : State) (x : Wmb)
@[simp] theorem State.setWmb_cfg : (s.setWmb x).cfg = s.cfg := rfl
@[simp] theorem State.setWmb_lpf : (s.setWmb x).lpf = s.lpf := rfl
@[simp] theorem State.setWmb_env0 : (s.setWmb x).env0 = s.env0 := rfl
@[simp] theorem State.setWmb_env1 : (s.setWmb x).env1 = s.env1 := rfl
@[simp] theorem State.setWmb_ctl : (s.setWmb x).ctl = s.ctl := rfl
@[simp] theorem State.setWmb_zdPrev : (s.setWmb x).zdPrev = s.zdPrev := rfl
@[simp] theorem State.setWmb_cd : (s.setWmb x).cd = s.cd := rfl
@[simp] theorem State.setWmb_ct : (s.setWmb x).ct = s.ct := rfl
@[simp] theorem State.setWmb_an : (s.setWmb x).an = s.an := rfl
@[simp] theorem State.setWmb_voices : (s.setWmb x).voices = s.voices := rfl
@[simp] theorem State.setWmb_eng : (s.setWmb x).eng = s.eng := rfl
@[simp] theorem State.setWmb_pipe : (s.setWmb x).pipe = s.pipe := rfl
@[simp] theorem State.setWmb_wmb : (s.setWmb x).wmb = x := rfl
@[simp] theorem State.setWmb_freq : (s.setWmb x).freq = s.freq := rfl
@[simp] theorem State.setWmb_ctrl : (s.setWmb x).ctrl = s.ctrl := rfl
@[simp] theorem State.setWmb_running : (s.setWmb x).running = s.running := rfl
@[simp] theorem State.setWmb_fault : (s.setWmb x).fault = s.fault := rfl
@[simp] theorem State.setWmb_faultInfo : (s.setWmb x).faultInfo = s.faultInfo := rfl
@[simp] theorem State.setWmb_mem : (s.setWmb x).mem = s.mem := rfl
@[simp] theorem State.setWmb_arenaCap : (s.setWmb x).arenaCap = s.arenaCap := rfl
@[simp] theorem State.setWmb_port : (s.setWmb x).port = s.port := rfl
@[simp] theorem State.setWmb_sched : (s.setWmb x).sched = s.sched := rfl
@[simp] theorem State.setWmb_resp : (s.setWmb x).resp = s.resp := rfl
end setWmb

section setFreq
variable (s : State) (x : Freq)
@[simp] theorem State.setFreq_cfg : (s.setFreq x).cfg = s.cfg := rfl
@[simp] theorem State.setFreq_lpf : (s.setFreq x).lpf = s.lpf := rfl
@[simp] theorem State.setFreq_env0 : (s.setFreq x).env0 = s.env0 := rfl
@[simp] theorem State.setFreq_env1 : (s.setFreq x).env1 = s.env1 := rfl
@[simp] theorem State.setFreq_ctl : (s.setFreq x).ctl = s.ctl := rfl
@[simp] theorem State.setFreq_zdPrev : (s.setFreq x).zdPrev = s.zdPrev := rfl
@[simp] theorem State.setFreq_cd : (s.setFreq x).cd = s.cd := rfl
@[simp] theorem State.setFreq_ct : (s.setFreq x).ct = s.ct := rfl
@[simp] theorem State.setFreq_an : (s.setFreq x).an = s.an := rfl
@[simp] theorem State.setFreq_voices : (s.setFreq x).voices = s.voices := rfl
@[simp] theorem State.setFreq_eng : (s.setFreq x).eng = s.eng := rfl
@[simp] theorem State.setFreq_pipe : (s.setFreq x).pipe = s.pipe := rfl
@[simp] theorem State.setFreq_wmb : (s.setFreq x).wmb = s.wmb := rfl
@[simp] theorem State.setFreq_freq : (s.setFreq x).freq = x := rfl
@[simp] theorem State.setFreq_ctrl : (s.setFreq x).ctrl = s.ctrl := rfl
@[simp] theorem State.setFreq_running : (s.setFreq x).running = s.running := rfl
@[simp] theorem State.setFreq_fault : (s.setFreq x).fault = s.fault := rfl
@[simp] theorem State.setFreq_faultInfo : (s.setFreq x).faultInfo = s.faultInfo := rfl
@[simp] theorem State.setFreq_mem : (s.setFreq x).mem = s.mem := rfl
@[simp] theorem State.setFreq_arenaCap : (s.setFreq x).arenaCap = s.arenaCap := rfl
@[simp] theorem State.setFreq_port : (s.setFreq x).port = s.port := rfl
@[simp] theorem State.setFreq_sched : (s.setFreq x).sched = s.sched := rfl
@[simp] theorem State.setFreq_resp : (s.setFreq x).resp = s.resp := rfl
end setFreq

section setCtrl
variable (s : State) (x : Ctrl)
@[simp] theorem State.setCtrl_cfg : (s.setCtrl x).cfg = s.cfg := rfl
@[simp] theorem State.setCtrl_lpf : (s.setCtrl x).lpf = s.lpf := rfl
@[simp] theorem State.setCtrl_env0 : (s.setCtrl x).env0 = s.env0 := rfl
@[simp] theorem State.setCtrl_env1 : (s.setCtrl x).env1 = s.env1 := rfl
@[simp] theorem State.setCtrl_ctl : (s.setCtrl x).ctl = s.ctl := rfl
@[simp] theorem State.setCtrl_zdPrev : (s.setCtrl x).zdPrev = s.zdPrev := rfl
@[simp] theorem State.setCtrl_cd : (s.setCtrl x).cd = s.cd := rfl
@[simp] theorem State.setCtrl_ct : (s.setCtrl x).ct = s.ct := rfl
@[simp] theorem State.setCtrl_an : (s.setCtrl x).an = s.an := rfl
@[simp] theorem State.setCtrl_voices : (s.setCtrl x).voices = s.voices := rfl
@[simp] theorem State.setCtrl_eng : (s.setCtrl x).eng = s.eng := rfl
@[simp] theorem State.setCtrl_pipe : (s.setCtrl x).pipe = s.pipe := rfl
@[simp] theorem State.setCtrl_wmb : (s.setCtrl x).wmb = s.wmb := rfl
@[simp] theorem State.setCtrl_freq : (s.setCtrl x).freq = s.freq := rfl
@[simp] theorem State.setCtrl_ctrl : (s.setCtrl x).ctrl = x := rfl
@[simp] theorem State.setCtrl_running : (s.setCtrl x).running = s.running := rfl
@[simp] theorem State.setCtrl_fault : (s.setCtrl x).fault = s.fault := rfl
@[simp] theorem State.setCtrl_faultInfo : (s.setCtrl x).faultInfo = s.faultInfo := rfl
@[simp] theorem State.setCtrl_mem : (s.setCtrl x).mem = s.mem := rfl
@[simp] theorem State.setCtrl_arenaCap : (s.setCtrl x).arenaCap = s.arenaCap := rfl
@[simp] theorem State.setCtrl_port : (s.setCtrl x).port = s.port := rfl
@[simp] theorem State.setCtrl_sched : (s.setCtrl x).sched = s.sched := rfl
@[simp] theorem State.setCtrl_resp : (s.setCtrl x).resp = s.resp := rfl
end setCtrl

section setRunning
variable (s : State) (x : Bool)
@[simp] theorem State.setRunning_cfg : (s.setRunning x).cfg = s.cfg := rfl
@[simp] theorem State.setRunning_lpf : (s.setRunning x).lpf = s.lpf := rfl
@[simp] theorem State.setRunning_env0 : (s.setRunning x).env0 = s.env0 := rfl
@[simp] theorem State.setRunning_env1 : (s.setRunning x).env1 = s.env1 := rfl
@[simp] theorem State.setRunning_ctl : (s.setRunning x).ctl = s.ctl := rfl
@[simp] theorem State.setRunning_zdPrev : (s.setRunning x).zdPrev = s.zdPrev := rfl
@[simp] theorem State.setRunning_cd : (s.setRunning x).cd = s.cd := rfl
@[simp] theorem State.setRunning_ct : (s.setRunning x).ct = s.ct := rfl
@[simp] theorem State.setRunning_an : (s.setRunning x).an = s.an := rfl
@[simp] theorem State.setRunning_voices : (s.setRunning x).voices = s.voices := rfl
@[simp] theorem State.setRunning_eng : (s.setRunning x).eng = s.eng := rfl
@[simp] theorem State.setRunning_pipe : (s.setRunning x).pipe = s.pipe := rfl
@[simp] theorem State.setRunning_wmb : (s.setRunning x).wmb = s.wmb := rfl
@[simp] theorem State.setRunning_freq : (s.setRunning x).freq = s.freq := rfl
@[simp] theorem State.setRunning_ctrl : (s.setRunning x).ctrl = s.ctrl := rfl
@[simp] theorem State.setRunning_running : (s.setRunning x).running = x := rfl
@[simp] theorem State.setRunning_fault : (s.setRunning x).fault = s.fault := rfl
@[simp] theorem State.setRunning_faultInfo : (s.setRunning x).faultInfo = s.faultInfo := rfl
@[simp] theorem State.setRunning_mem : (s.setRunning x).mem = s.mem := rfl
@[simp] theorem State.setRunning_arenaCap : (s.setRunning x).arenaCap = s.arenaCap := rfl
@[simp] theorem State.setRunning_port : (s.setRunning x).port = s.port := rfl
@[simp] theorem State.setRunning_sched : (s.setRunning x).sched = s.sched := rfl
@[simp] theorem State.setRunning_resp : (s.setRunning x).resp = s.resp := rfl
end setRunning

section setMem
variable (s : State) (x : Memory)
@[simp] theorem State.setMem_cfg : (s.setMem x).cfg = s.cfg := rfl
@[simp] theorem State.setMem_lpf : (s.setMem x).lpf = s.lpf := rfl
@[simp] theorem State.setMem_env0 : (s.setMem x).env0 = s.env0 := rfl
@[simp] theorem State.setMem_env1 : (s.setMem x).env1 = s.env1 := rfl
@[simp] theorem State.setMem_ctl : (s.setMem x).ctl = s.ctl := rfl
@[simp] theorem State.setMem_zdPrev : (s.setMem x).zdPrev = s.zdPrev := rfl
@[simp] theorem State.setMem_cd : (s.setMem x).cd = s.cd := rfl
@[simp] theorem State.setMem_ct : (s.setMem x).ct = s.ct := rfl
@[simp] theorem State.setMem_an : (s.setMem x).an = s.an := rfl
@[simp] theorem State.setMem_voices : (s.setMem x).voices = s.voices := rfl
@[simp] theorem State.setMem_eng : (s.setMem x).eng = s.eng := rfl
@[simp] theorem State.setMem_pipe : (s.setMem x).pipe = s.pipe := rfl
@[simp] theorem State.setMem_wmb : (s.setMem x).wmb = s.wmb := rfl
@[simp] theorem State.setMem_freq : (s.setMem x).freq = s.freq := rfl
@[simp] theorem State.setMem_ctrl : (s.setMem x).ctrl = s.ctrl := rfl
@[simp] theorem State.setMem_running : (s.setMem x).running = s.running := rfl
@[simp] theorem State.setMem_fault : (s.setMem x).fault = s.fault := rfl
@[simp] theorem State.setMem_faultInfo : (s.setMem x).faultInfo = s.faultInfo := rfl
@[simp] theorem State.setMem_mem : (s.setMem x).mem = x := rfl
@[simp] theorem State.setMem_arenaCap : (s.setMem x).arenaCap = s.arenaCap := rfl
@[simp] theorem State.setMem_port : (s.setMem x).port = s.port := rfl
@[simp] theorem State.setMem_sched : (s.setMem x).sched = s.sched := rfl
@[simp] theorem State.setMem_resp : (s.setMem x).resp = s.resp := rfl
end setMem

section setPort
variable (s : State) (x : List Word)
@[simp] theorem State.setPort_cfg : (s.setPort x).cfg = s.cfg := rfl
@[simp] theorem State.setPort_lpf : (s.setPort x).lpf = s.lpf := rfl
@[simp] theorem State.setPort_env0 : (s.setPort x).env0 = s.env0 := rfl
@[simp] theorem State.setPort_env1 : (s.setPort x).env1 = s.env1 := rfl
@[simp] theorem State.setPort_ctl : (s.setPort x).ctl = s.ctl := rfl
@[simp] theorem State.setPort_zdPrev : (s.setPort x).zdPrev = s.zdPrev := rfl
@[simp] theorem State.setPort_cd : (s.setPort x).cd = s.cd := rfl
@[simp] theorem State.setPort_ct : (s.setPort x).ct = s.ct := rfl
@[simp] theorem State.setPort_an : (s.setPort x).an = s.an := rfl
@[simp] theorem State.setPort_voices : (s.setPort x).voices = s.voices := rfl
@[simp] theorem State.setPort_eng : (s.setPort x).eng = s.eng := rfl
@[simp] theorem State.setPort_pipe : (s.setPort x).pipe = s.pipe := rfl
@[simp] theorem State.setPort_wmb : (s.setPort x).wmb = s.wmb := rfl
@[simp] theorem State.setPort_freq : (s.setPort x).freq = s.freq := rfl
@[simp] theorem State.setPort_ctrl : (s.setPort x).ctrl = s.ctrl := rfl
@[simp] theorem State.setPort_running : (s.setPort x).running = s.running := rfl
@[simp] theorem State.setPort_fault : (s.setPort x).fault = s.fault := rfl
@[simp] theorem State.setPort_faultInfo : (s.setPort x).faultInfo = s.faultInfo := rfl
@[simp] theorem State.setPort_mem : (s.setPort x).mem = s.mem := rfl
@[simp] theorem State.setPort_arenaCap : (s.setPort x).arenaCap = s.arenaCap := rfl
@[simp] theorem State.setPort_port : (s.setPort x).port = x := rfl
@[simp] theorem State.setPort_sched : (s.setPort x).sched = s.sched := rfl
@[simp] theorem State.setPort_resp : (s.setPort x).resp = s.resp := rfl
end setPort

section setSched
variable (s : State) (x : List Turn)
@[simp] theorem State.setSched_cfg : (s.setSched x).cfg = s.cfg := rfl
@[simp] theorem State.setSched_lpf : (s.setSched x).lpf = s.lpf := rfl
@[simp] theorem State.setSched_env0 : (s.setSched x).env0 = s.env0 := rfl
@[simp] theorem State.setSched_env1 : (s.setSched x).env1 = s.env1 := rfl
@[simp] theorem State.setSched_ctl : (s.setSched x).ctl = s.ctl := rfl
@[simp] theorem State.setSched_zdPrev : (s.setSched x).zdPrev = s.zdPrev := rfl
@[simp] theorem State.setSched_cd : (s.setSched x).cd = s.cd := rfl
@[simp] theorem State.setSched_ct : (s.setSched x).ct = s.ct := rfl
@[simp] theorem State.setSched_an : (s.setSched x).an = s.an := rfl
@[simp] theorem State.setSched_voices : (s.setSched x).voices = s.voices := rfl
@[simp] theorem State.setSched_eng : (s.setSched x).eng = s.eng := rfl
@[simp] theorem State.setSched_pipe : (s.setSched x).pipe = s.pipe := rfl
@[simp] theorem State.setSched_wmb : (s.setSched x).wmb = s.wmb := rfl
@[simp] theorem State.setSched_freq : (s.setSched x).freq = s.freq := rfl
@[simp] theorem State.setSched_ctrl : (s.setSched x).ctrl = s.ctrl := rfl
@[simp] theorem State.setSched_running : (s.setSched x).running = s.running := rfl
@[simp] theorem State.setSched_fault : (s.setSched x).fault = s.fault := rfl
@[simp] theorem State.setSched_faultInfo : (s.setSched x).faultInfo = s.faultInfo := rfl
@[simp] theorem State.setSched_mem : (s.setSched x).mem = s.mem := rfl
@[simp] theorem State.setSched_arenaCap : (s.setSched x).arenaCap = s.arenaCap := rfl
@[simp] theorem State.setSched_port : (s.setSched x).port = s.port := rfl
@[simp] theorem State.setSched_sched : (s.setSched x).sched = x := rfl
@[simp] theorem State.setSched_resp : (s.setSched x).resp = s.resp := rfl
end setSched

section setResp
variable (s : State) (x : List Response)
@[simp] theorem State.setResp_cfg : (s.setResp x).cfg = s.cfg := rfl
@[simp] theorem State.setResp_lpf : (s.setResp x).lpf = s.lpf := rfl
@[simp] theorem State.setResp_env0 : (s.setResp x).env0 = s.env0 := rfl
@[simp] theorem State.setResp_env1 : (s.setResp x).env1 = s.env1 := rfl
@[simp] theorem State.setResp_ctl : (s.setResp x).ctl = s.ctl := rfl
@[simp] theorem State.setResp_zdPrev : (s.setResp x).zdPrev = s.zdPrev := rfl
@[simp] theorem State.setResp_cd : (s.setResp x).cd = s.cd := rfl
@[simp] theorem State.setResp_ct : (s.setResp x).ct = s.ct := rfl
@[simp] theorem State.setResp_an : (s.setResp x).an = s.an := rfl
@[simp] theorem State.setResp_voices : (s.setResp x).voices = s.voices := rfl
@[simp] theorem State.setResp_eng : (s.setResp x).eng = s.eng := rfl
@[simp] theorem State.setResp_pipe : (s.setResp x).pipe = s.pipe := rfl
@[simp] theorem State.setResp_wmb : (s.setResp x).wmb = s.wmb := rfl
@[simp] theorem State.setResp_freq : (s.setResp x).freq = s.freq := rfl
@[simp] theorem State.setResp_ctrl : (s.setResp x).ctrl = s.ctrl := rfl
@[simp] theorem State.setResp_running : (s.setResp x).running = s.running := rfl
@[simp] theorem State.setResp_fault : (s.setResp x).fault = s.fault := rfl
@[simp] theorem State.setResp_faultInfo : (s.setResp x).faultInfo = s.faultInfo := rfl
@[simp] theorem State.setResp_mem : (s.setResp x).mem = s.mem := rfl
@[simp] theorem State.setResp_arenaCap : (s.setResp x).arenaCap = s.arenaCap := rfl
@[simp] theorem State.setResp_port : (s.setResp x).port = s.port := rfl
@[simp] theorem State.setResp_sched : (s.setResp x).sched = s.sched := rfl
@[simp] theorem State.setResp_resp : (s.setResp x).resp = x := rfl
end setResp

section setFault
variable (s : State) (c i : Word)
@[simp] theorem State.setFault_cfg : (s.setFault c i).cfg = s.cfg := rfl
@[simp] theorem State.setFault_lpf : (s.setFault c i).lpf = s.lpf := rfl
@[simp] theorem State.setFault_env0 : (s.setFault c i).env0 = s.env0 := rfl
@[simp] theorem State.setFault_env1 : (s.setFault c i).env1 = s.env1 := rfl
@[simp] theorem State.setFault_ctl : (s.setFault c i).ctl = s.ctl := rfl
@[simp] theorem State.setFault_zdPrev : (s.setFault c i).zdPrev = s.zdPrev := rfl
@[simp] theorem State.setFault_cd : (s.setFault c i).cd = s.cd := rfl
@[simp] theorem State.setFault_ct : (s.setFault c i).ct = s.ct := rfl
@[simp] theorem State.setFault_an : (s.setFault c i).an = s.an := rfl
@[simp] theorem State.setFault_voices : (s.setFault c i).voices = s.voices := rfl
@[simp] theorem State.setFault_eng : (s.setFault c i).eng = s.eng := rfl
@[simp] theorem State.setFault_pipe : (s.setFault c i).pipe = s.pipe := rfl
@[simp] theorem State.setFault_wmb : (s.setFault c i).wmb = s.wmb := rfl
@[simp] theorem State.setFault_freq : (s.setFault c i).freq = s.freq := rfl
@[simp] theorem State.setFault_ctrl : (s.setFault c i).ctrl = s.ctrl := rfl
@[simp] theorem State.setFault_running : (s.setFault c i).running = s.running := rfl
@[simp] theorem State.setFault_fault : (s.setFault c i).fault = c := rfl
@[simp] theorem State.setFault_faultInfo : (s.setFault c i).faultInfo = i := rfl
@[simp] theorem State.setFault_mem : (s.setFault c i).mem = s.mem := rfl
@[simp] theorem State.setFault_arenaCap : (s.setFault c i).arenaCap = s.arenaCap := rfl
@[simp] theorem State.setFault_port : (s.setFault c i).port = s.port := rfl
@[simp] theorem State.setFault_sched : (s.setFault c i).sched = s.sched := rfl
@[simp] theorem State.setFault_resp : (s.setFault c i).resp = s.resp := rfl
end setFault

section respond
variable (s : State) (st : Status) (rs : List Word)
@[simp] theorem State.respond_cfg : (s.respond st rs).cfg = s.cfg := rfl
@[simp] theorem State.respond_lpf : (s.respond st rs).lpf = s.lpf := rfl
@[simp] theorem State.respond_env0 : (s.respond st rs).env0 = s.env0 := rfl
@[simp] theorem State.respond_env1 : (s.respond st rs).env1 = s.env1 := rfl
@[simp] theorem State.respond_ctl : (s.respond st rs).ctl = s.ctl := rfl
@[simp] theorem State.respond_zdPrev : (s.respond st rs).zdPrev = s.zdPrev := rfl
@[simp] theorem State.respond_cd : (s.respond st rs).cd = s.cd := rfl
@[simp] theorem State.respond_ct : (s.respond st rs).ct = s.ct := rfl
@[simp] theorem State.respond_an : (s.respond st rs).an = s.an := rfl
@[simp] theorem State.respond_voices : (s.respond st rs).voices = s.voices := rfl
@[simp] theorem State.respond_eng : (s.respond st rs).eng = s.eng := rfl
@[simp] theorem State.respond_pipe : (s.respond st rs).pipe = s.pipe := rfl
@[simp] theorem State.respond_wmb : (s.respond st rs).wmb = s.wmb := rfl
@[simp] theorem State.respond_freq : (s.respond st rs).freq = s.freq := rfl
@[simp] theorem State.respond_ctrl : (s.respond st rs).ctrl = s.ctrl := rfl
@[simp] theorem State.respond_running : (s.respond st rs).running = s.running := rfl
@[simp] theorem State.respond_fault : (s.respond st rs).fault = s.fault := rfl
@[simp] theorem State.respond_faultInfo : (s.respond st rs).faultInfo = s.faultInfo := rfl
@[simp] theorem State.respond_mem : (s.respond st rs).mem = s.mem := rfl
@[simp] theorem State.respond_arenaCap : (s.respond st rs).arenaCap = s.arenaCap := rfl
@[simp] theorem State.respond_port : (s.respond st rs).port = s.port := rfl
@[simp] theorem State.respond_sched : (s.respond st rs).sched = s.sched := rfl
@[simp] theorem State.respond_resp : (s.respond st rs).resp = s.resp ++ [⟨st, rs⟩] := rfl
end respond

section poke
variable (s : State) (sp : Space) (i : Nat) (w : Word)
@[simp] theorem State.poke_cfg : (s.poke sp i w).cfg = s.cfg := rfl
@[simp] theorem State.poke_lpf : (s.poke sp i w).lpf = s.lpf := rfl
@[simp] theorem State.poke_env0 : (s.poke sp i w).env0 = s.env0 := rfl
@[simp] theorem State.poke_env1 : (s.poke sp i w).env1 = s.env1 := rfl
@[simp] theorem State.poke_ctl : (s.poke sp i w).ctl = s.ctl := rfl
@[simp] theorem State.poke_zdPrev : (s.poke sp i w).zdPrev = s.zdPrev := rfl
@[simp] theorem State.poke_cd : (s.poke sp i w).cd = s.cd := rfl
@[simp] theorem State.poke_ct : (s.poke sp i w).ct = s.ct := rfl
@[simp] theorem State.poke_an : (s.poke sp i w).an = s.an := rfl
@[simp] theorem State.poke_voices : (s.poke sp i w).voices = s.voices := rfl
@[simp] theorem State.poke_eng : (s.poke sp i w).eng = s.eng := rfl
@[simp] theorem State.poke_pipe : (s.poke sp i w).pipe = s.pipe := rfl
@[simp] theorem State.poke_wmb : (s.poke sp i w).wmb = s.wmb := rfl
@[simp] theorem State.poke_freq : (s.poke sp i w).freq = s.freq := rfl
@[simp] theorem State.poke_ctrl : (s.poke sp i w).ctrl = s.ctrl := rfl
@[simp] theorem State.poke_running : (s.poke sp i w).running = s.running := rfl
@[simp] theorem State.poke_fault : (s.poke sp i w).fault = s.fault := rfl
@[simp] theorem State.poke_faultInfo : (s.poke sp i w).faultInfo = s.faultInfo := rfl
@[simp] theorem State.poke_mem : (s.poke sp i w).mem = s.mem.withCells sp (setCell (s.mem.cells sp) i w) := rfl
@[simp] theorem State.poke_arenaCap : (s.poke sp i w).arenaCap = s.arenaCap := rfl
@[simp] theorem State.poke_port : (s.poke sp i w).port = s.port := rfl
@[simp] theorem State.poke_sched : (s.poke sp i w).sched = s.sched := rfl
@[simp] theorem State.poke_resp : (s.poke sp i w).resp = s.resp := rfl
end poke

section setVoice
variable (s : State) (v : Nat) (x : Voice)
@[simp] theorem State.setVoice_cfg : (s.setVoice v x).cfg = s.cfg := rfl
@[simp] theorem State.setVoice_lpf : (s.setVoice v x).lpf = s.lpf := rfl
@[simp] theorem State.setVoice_env0 : (s.setVoice v x).env0 = s.env0 := rfl
@[simp] theorem State.setVoice_env1 : (s.setVoice v x).env1 = s.env1 := rfl
@[simp] theorem State.setVoice_ctl : (s.setVoice v x).ctl = s.ctl := rfl
@[simp] theorem State.setVoice_zdPrev : (s.setVoice v x).zdPrev = s.zdPrev := rfl
@[simp] theorem State.setVoice_cd : (s.setVoice v x).cd = s.cd := rfl
@[simp] theorem State.setVoice_ct : (s.setVoice v x).ct = s.ct := rfl
@[simp] theorem State.setVoice_an : (s.setVoice v x).an = s.an := rfl
@[simp] theorem State.setVoice_voices : (s.setVoice v x).voices = s.voices.setIfInBounds v x := rfl
@[simp] theorem State.setVoice_eng : (s.setVoice v x).eng = s.eng := rfl
@[simp] theorem State.setVoice_pipe : (s.setVoice v x).pipe = s.pipe := rfl
@[simp] theorem State.setVoice_wmb : (s.setVoice v x).wmb = s.wmb := rfl
@[simp] theorem State.setVoice_freq : (s.setVoice v x).freq = s.freq := rfl
@[simp] theorem State.setVoice_ctrl : (s.setVoice v x).ctrl = s.ctrl := rfl
@[simp] theorem State.setVoice_running : (s.setVoice v x).running = s.running := rfl
@[simp] theorem State.setVoice_fault : (s.setVoice v x).fault = s.fault := rfl
@[simp] theorem State.setVoice_faultInfo : (s.setVoice v x).faultInfo = s.faultInfo := rfl
@[simp] theorem State.setVoice_mem : (s.setVoice v x).mem = s.mem := rfl
@[simp] theorem State.setVoice_arenaCap : (s.setVoice v x).arenaCap = s.arenaCap := rfl
@[simp] theorem State.setVoice_port : (s.setVoice v x).port = s.port := rfl
@[simp] theorem State.setVoice_sched : (s.setVoice v x).sched = s.sched := rfl
@[simp] theorem State.setVoice_resp : (s.setVoice v x).resp = s.resp := rfl
end setVoice

section recordFault
variable (s : State) (c : FaultCause) (i : Word)
@[simp] theorem State.recordFault_cfg : (s.recordFault c i).cfg = s.cfg := by unfold State.recordFault; split <;> rfl
@[simp] theorem State.recordFault_lpf : (s.recordFault c i).lpf = s.lpf := by unfold State.recordFault; split <;> rfl
@[simp] theorem State.recordFault_env0 : (s.recordFault c i).env0 = s.env0 := by unfold State.recordFault; split <;> rfl
@[simp] theorem State.recordFault_env1 : (s.recordFault c i).env1 = s.env1 := by unfold State.recordFault; split <;> rfl
@[simp] theorem State.recordFault_ctl : (s.recordFault c i).ctl = s.ctl := by unfold State.recordFault; split <;> rfl
@[simp] theorem State.recordFault_zdPrev : (s.recordFault c i).zdPrev = s.zdPrev := by unfold State.recordFault; split <;> rfl
@[simp] theorem State.recordFault_cd : (s.recordFault c i).cd = s.cd := by unfold State.recordFault; split <;> rfl
@[simp] theorem State.recordFault_ct : (s.recordFault c i).ct = s.ct := by unfold State.recordFault; split <;> rfl
@[simp] theorem State.recordFault_an : (s.recordFault c i).an = s.an := by unfold State.recordFault; split <;> rfl
@[simp] theorem State.recordFault_voices : (s.recordFault c i).voices = s.voices := by unfold State.recordFault; split <;> rfl
@[simp] theorem State.recordFault_eng : (s.recordFault c i).eng = s.eng := by unfold State.recordFault; split <;> rfl
@[simp] theorem State.recordFault_pipe : (s.recordFault c i).pipe = s.pipe := by unfold State.recordFault; split <;> rfl
@[simp] theorem State.recordFault_wmb : (s.recordFault c i).wmb = s.wmb := by unfold State.recordFault; split <;> rfl
@[simp] theorem State.recordFault_freq : (s.recordFault c i).freq = s.freq := by unfold State.recordFault; split <;> rfl
@[simp] theorem State.recordFault_ctrl : (s.recordFault c i).ctrl = s.ctrl := by unfold State.recordFault; split <;> rfl
@[simp] theorem State.recordFault_running : (s.recordFault c i).running = s.running := by unfold State.recordFault; split <;> rfl
@[simp] theorem State.recordFault_mem : (s.recordFault c i).mem = s.mem := by unfold State.recordFault; split <;> rfl
@[simp] theorem State.recordFault_arenaCap : (s.recordFault c i).arenaCap = s.arenaCap := by unfold State.recordFault; split <;> rfl
@[simp] theorem State.recordFault_port : (s.recordFault c i).port = s.port := by unfold State.recordFault; split <;> rfl
@[simp] theorem State.recordFault_sched : (s.recordFault c i).sched = s.sched := by unfold State.recordFault; split <;> rfl
@[simp] theorem State.recordFault_resp : (s.recordFault c i).resp = s.resp := by unfold State.recordFault; split <;> rfl
end recordFault

section deviceReset
variable (s : State)
@[simp] theorem State.deviceReset_cfg : s.deviceReset.cfg = State.reset.cfg := rfl
@[simp] theorem State.deviceReset_lpf : s.deviceReset.lpf = State.reset.lpf := rfl
@[simp] theorem State.deviceReset_env0 : s.deviceReset.env0 = State.reset.env0 := rfl
@[simp] theorem State.deviceReset_env1 : s.deviceReset.env1 = State.reset.env1 := rfl
@[simp] theorem State.deviceReset_ctl : s.deviceReset.ctl = State.reset.ctl := rfl
@[simp] theorem State.deviceReset_zdPrev : s.deviceReset.zdPrev = State.reset.zdPrev := rfl
@[simp] theorem State.deviceReset_cd : s.deviceReset.cd = State.reset.cd := rfl
@[simp] theorem State.deviceReset_ct : s.deviceReset.ct = State.reset.ct := rfl
@[simp] theorem State.deviceReset_an : s.deviceReset.an = State.reset.an := rfl
@[simp] theorem State.deviceReset_voices : s.deviceReset.voices = State.reset.voices := rfl
@[simp] theorem State.deviceReset_eng : s.deviceReset.eng = State.reset.eng := rfl
@[simp] theorem State.deviceReset_pipe : s.deviceReset.pipe = State.reset.pipe := rfl
@[simp] theorem State.deviceReset_wmb : s.deviceReset.wmb = State.reset.wmb := rfl
@[simp] theorem State.deviceReset_freq : s.deviceReset.freq = State.reset.freq := rfl
@[simp] theorem State.deviceReset_ctrl : s.deviceReset.ctrl = State.reset.ctrl := rfl
@[simp] theorem State.deviceReset_running : s.deviceReset.running = State.reset.running := rfl
@[simp] theorem State.deviceReset_fault : s.deviceReset.fault = State.reset.fault := rfl
@[simp] theorem State.deviceReset_faultInfo : s.deviceReset.faultInfo = State.reset.faultInfo := rfl
@[simp] theorem State.deviceReset_mem : s.deviceReset.mem = State.reset.mem := rfl
@[simp] theorem State.deviceReset_arenaCap : s.deviceReset.arenaCap = s.arenaCap := rfl
@[simp] theorem State.deviceReset_port : s.deviceReset.port = s.port := rfl
@[simp] theorem State.deviceReset_sched : s.deviceReset.sched = s.sched := rfl
@[simp] theorem State.deviceReset_resp : s.deviceReset.resp = s.resp := rfl
end deviceReset

end Sys2Proof.Machine
end

