-- ==== Sys2Proof/Laws/Cells.lean ====
section
/-! SUPPORT. Laws of memory cells: read after write, and that every memory operation keeps the canonical form. -/

namespace Sys2Proof.Machine

/-! ## One space -/

@[simp] theorem cellAt_nil (i : Nat) : cellAt [] i = blankCell := rfl

theorem cellsWf_cons {k : Nat} {v : Word} {t : Cells} :
    cellsWf ((k, v) :: t) = true ↔ v ≠ blankCell ∧ (∀ e ∈ t.head?, k < e.1) ∧ cellsWf t = true := by
  cases t with
  | nil => simp [cellsWf]
  | cons e t => obtain ⟨k2, v2⟩ := e; simp [cellsWf, and_assoc]

/-- In a canonical list every index after the head is greater than the head's. -/
theorem cellsWf_lt {k : Nat} {v : Word} {t : Cells} (h : cellsWf ((k, v) :: t) = true) :
    ∀ e ∈ t, k < e.1 := by
  induction t generalizing k v with
  | nil => simp
  | cons e t ih =>
    obtain ⟨k2, v2⟩ := e
    obtain ⟨-, hk, ht⟩ := cellsWf_cons.1 h
    have hk2 : k < k2 := hk _ rfl
    intro e he
    rcases List.mem_cons.1 he with rfl | he
    · exact hk2
    · exact hk2.trans (ih ht e he)

theorem cellAt_of_lt {t : Cells} {i : Nat} (h : ∀ e ∈ t, i < e.1) : cellAt t i = blankCell := by
  induction t with
  | nil => rfl
  | cons e t ih =>
    obtain ⟨k, v⟩ := e
    have hk : i < k := h (k, v) (by simp)
    simp only [cellAt]
    rw [if_neg (by omega)]
    exact ih fun e he => h e (by simp [he])

theorem cellAt_setCell_ne (c : Cells) (i j : Nat) (w : Word) (h : j ≠ i) : cellAt (setCell c i w) j = cellAt c j := by
  induction c with
  | nil => simp only [setCell]; split <;> simp [cellAt, Ne.symm h]
  | cons e t ih =>
    obtain ⟨k, v⟩ := e
    simp only [setCell]
    have hne : ¬ i = j := fun hh => h hh.symm
    split_ifs with h1 h2 h3 h4
    · rfl
    · simp only [cellAt, if_neg hne]
    · simp only [cellAt, if_neg (h3 ▸ hne : ¬ k = j)]
    · simp only [cellAt, if_neg hne, if_neg (h3 ▸ hne : ¬ k = j)]
    · simp only [cellAt, ih]

/-- Read after write of the same cell, in a canonical memory. -/
theorem cellAt_setCell_same {c : Cells} (i : Nat) (w : Word) (hc : cellsWf c = true) :
    cellAt (setCell c i w) i = w := by
  induction c with
  | nil => simp only [setCell]; split <;> simp_all [cellAt]
  | cons e t ih =>
    obtain ⟨k, v⟩ := e
    have hlt := cellsWf_lt hc
    obtain ⟨-, -, ht⟩ := cellsWf_cons.1 hc
    simp only [setCell]
    split_ifs with h1 h2 h3 h4
    · rw [h2]; simp only [cellAt, if_neg (show ¬ k = i by omega)]
      exact cellAt_of_lt fun e he => h1.trans (hlt e he)
    · simp [cellAt]
    · rw [h4]; exact cellAt_of_lt fun e he => h3 ▸ hlt e he
    · simp [cellAt]
    · simp only [cellAt, if_neg (show ¬ k = i by omega)]; exact ih ht

/-- The head of a written list is the old head or the written cell. -/
theorem setCell_head {c : Cells} {i : Nat} {w : Word} {m : Nat} (hm : m < i) (hc : ∀ e ∈ c, m < e.1) :
    ∀ e ∈ setCell c i w, m < e.1 := by
  induction c with
  | nil => simp only [setCell]; split <;> simp_all
  | cons e t ih =>
    obtain ⟨k, v⟩ := e
    have hk : m < k := hc (k, v) (by simp)
    have ht : ∀ e ∈ t, m < e.1 := fun e he => hc e (by simp [he])
    simp only [setCell]
    split_ifs
    · exact hc
    · intro e he; rcases List.mem_cons.1 he with rfl | he
      · exact hm
      · exact hc e he
    · exact ht
    · intro e he; rcases List.mem_cons.1 he with rfl | he
      · exact hm
      · exact ht e he
    · intro e he; rcases List.mem_cons.1 he with rfl | he
      · exact hk
      · exact ih ht e he

theorem cellsWf_of_forall {k : Nat} {v : Word} {t : Cells} (hv : v ≠ blankCell) (hlt : ∀ e ∈ t, k < e.1)
    (ht : cellsWf t = true) : cellsWf ((k, v) :: t) = true :=
  cellsWf_cons.2 ⟨hv, fun e he => hlt e (List.mem_of_mem_head? he), ht⟩

/-- A write keeps the canonical form. -/
theorem setCell_wf {c : Cells} (i : Nat) (w : Word) (hc : cellsWf c = true) : cellsWf (setCell c i w) = true := by
  induction c with
  | nil => simp only [setCell]; split <;> simp_all [cellsWf]
  | cons e t ih =>
    obtain ⟨k, v⟩ := e
    have hlt := cellsWf_lt hc
    obtain ⟨hv, -, ht⟩ := cellsWf_cons.1 hc
    simp only [setCell]
    split_ifs with h1 h2 h3 h4
    · exact hc
    · refine cellsWf_of_forall h2 (fun e he => ?_) hc
      rcases List.mem_cons.1 he with rfl | he
      · exact h1
      · exact h1.trans (hlt e he)
    · exact ht
    · exact cellsWf_of_forall h4 (fun e he => h3 ▸ hlt e he) ht
    · exact cellsWf_of_forall hv (setCell_head (by omega) hlt) (ih ht)

/-- A write below the size lists no cell beyond it. -/
theorem setCell_below {c : Cells} {n i : Nat} (w : Word) (hi : i < n) (hc : cellsBelow n c = true) :
    cellsBelow n (setCell c i w) = true := by
  simp only [cellsBelow, List.all_eq_true, decide_eq_true_eq] at hc ⊢
  induction c with
  | nil =>
    intro e he
    simp only [setCell] at he
    split at he
    · simp at he
    · simp only [List.mem_singleton] at he; rw [he]; exact hi
  | cons e t ih =>
    obtain ⟨k, v⟩ := e
    have ht : ∀ e ∈ t, e.1 < n := fun e he => hc e (by simp [he])
    have hk : k < n := hc (k, v) (by simp)
    simp only [setCell]
    split_ifs <;> intro e he <;> try simp only [List.mem_cons] at he
    · rcases he with rfl | he
      · exact hk
      · exact ht e he
    · rcases he with rfl | rfl | he
      · exact hi
      · exact hk
      · exact ht e he
    · exact ht e he
    · rcases he with rfl | he
      · exact hi
      · exact ht e he
    · rcases he with rfl | he
      · exact hk
      · exact ih ht e he

/-! ## Tables -/

theorem tableCells_bounds (f : Nat → Word) (n i : Nat) : ∀ e ∈ tableCells f n i, i ≤ e.1 ∧ e.1 < i + n := by
  induction n generalizing i with
  | zero => simp [tableCells]
  | succ n ih =>
    intro e he
    simp only [tableCells] at he
    split_ifs at he
    · have := ih (i + 1) e he; omega
    · rcases List.mem_cons.1 he with rfl | he
      · simp
      · have := ih (i + 1) e he; omega

/-- A table has the canonical form. -/
theorem tableCells_wf (f : Nat → Word) (n i : Nat) : cellsWf (tableCells f n i) = true := by
  induction n generalizing i with
  | zero => rfl
  | succ n ih =>
    simp only [tableCells]
    split_ifs with h
    · exact ih _
    · exact cellsWf_of_forall h (fun e he => by have := tableCells_bounds f n (i + 1) e he; omega) (ih _)

/-- What a table reads as: its function in range, an unlisted cell outside. -/
theorem cellAt_tableCells (f : Nat → Word) (n i j : Nat) :
    cellAt (tableCells f n i) j = if i ≤ j ∧ j < i + n then f j else blankCell := by
  induction n generalizing i with
  | zero => rw [if_neg (by omega)]; rfl
  | succ n ih =>
    simp only [tableCells]
    split_ifs with h1 h2 h2
    · rw [ih]; by_cases hj : j = i
      · subst hj; rw [if_neg (by omega), h1]
      · rw [if_pos (by omega)]
    · rw [ih, if_neg (by omega)]
    · by_cases hj : i = j
      · subst hj; simp [cellAt]
      · simp only [cellAt, if_neg hj]; rw [ih, if_pos (by omega)]
    · simp only [cellAt, if_neg (show ¬ i = j by omega)]; rw [ih, if_neg (by omega)]

/-! ## The thirteen spaces -/

@[simp] theorem Memory.cells_withCells_same (m : Memory) (sp : Space) (c : Cells) : (m.withCells sp c).cells sp = c := by
  cases sp <;> rfl

@[simp] theorem Memory.cells_withCells_ne (m : Memory) {sp sp' : Space} (c : Cells) (h : sp' ≠ sp) :
    (m.withCells sp c).cells sp' = m.cells sp' := by
  cases sp <;> cases sp' <;> first | rfl | exact absurd rfl h

theorem Memory.cells_withCells (m : Memory) (sp sp' : Space) (c : Cells) :
    (m.withCells sp c).cells sp' = if sp' = sp then c else m.cells sp' := by
  split_ifs with h
  · subst h; simp
  · exact Memory.cells_withCells_ne m c h

@[simp] theorem Memory.cells_empty (sp : Space) : Memory.empty.cells sp = [] := by cases sp <;> rfl

theorem Memory.wf_iff (m : Memory) : m.wf = true ↔ ∀ sp, cellsWf (m.cells sp) = true := by
  simp only [Memory.wf, allSpaces, List.all_cons, List.all_nil, Bool.and_true, Bool.and_eq_true]
  constructor
  · intro h sp; cases sp <;> simp_all
  · intro h; simp [h]

/-- Writing one space in canonical form keeps the whole memory in it. -/
theorem Memory.withCells_wf {m : Memory} {sp : Space} {c : Cells} (hm : m.wf = true) (hc : cellsWf c = true) :
    (m.withCells sp c).wf = true := by
  rw [Memory.wf_iff] at hm ⊢
  intro sp'
  rw [Memory.cells_withCells]
  split_ifs
  · exact hc
  · exact hm sp'

theorem Memory.empty_wf : Memory.empty.wf = true := rfl

/-! ## Reads and writes of the state -/

/-- `poke` keeps the canonical form. -/
theorem State.poke_wf {s : State} (sp : Space) (i : Nat) (w : Word) (h : s.mem.wf = true) :
    (s.poke sp i w).mem.wf = true :=
  Memory.withCells_wf h (setCell_wf i w ((Memory.wf_iff _).1 h sp))

/-- Read after write of the same cell. -/
theorem State.peek_poke_same {s : State} (sp : Space) (i : Nat) (w : Word) (h : s.mem.wf = true) :
    (s.poke sp i w).peek sp i = w := by
  simp only [State.peek, State.poke_mem, Memory.cells_withCells_same]
  exact cellAt_setCell_same i w ((Memory.wf_iff _).1 h sp)

/-- A write leaves every other cell alone. -/
theorem State.peek_poke_ne (s : State) {sp sp' : Space} {i j : Nat} (w : Word) (h : sp' ≠ sp ∨ j ≠ i) :
    (s.poke sp i w).peek sp' j = s.peek sp' j := by
  simp only [State.peek, State.poke_mem, Memory.cells_withCells]
  split_ifs with hsp
  · subst hsp; exact cellAt_setCell_ne _ _ _ _ (h.resolve_left (by simp))
  · rfl

/-- The memory INIT creates has the canonical form. -/
theorem initialCells_wf (f g k : Nat → Word) (n m : Nat) :
    ({ Memory.empty with anWin := tableCells f n 0, anTwr := tableCells g m 0, anTwi := tableCells k m 0 } : Memory).wf
      = true := by
  rw [Memory.wf_iff]
  intro sp
  cases sp <;> first | rfl | exact tableCells_wf _ _ _

/-! ## Voice banks -/

theorem State.voice_setVoice (s : State) (v u : Nat) (x : Voice) :
    (s.setVoice v x).voice u = if v = u ∧ v < 256 then x else s.voice u := by
  simp only [State.voice, State.setVoice_voices, Vector.getElem?_setIfInBounds]
  by_cases h : v = u
  · subst h
    by_cases hv : v < 256
    · simp [hv]
    · simp [hv]
  · simp [h]

end Sys2Proof.Machine
end

