-- ==== Sys2Proof/Laws/Ops.lean ====
section
/-! SUPPORT. One lemma for each shared operation that says once everything it can do, for proofs to cite instead of
unfolding it. -/

namespace Sys2Proof.Machine

variable {α β : Type}

/-! ## Sequencing -/

theorem M.bind_apply (x : M α) (f : α → M β) (s : State) :
    (x >>= f) s = match x s with
      | .ok a t => f a t
      | .error e t => .error e t := by
  show EStateM.bind x f s = _
  unfold EStateM.bind
  cases x s <;> rfl

@[simp] theorem M.pure_apply (a : α) (s : State) : (pure a : M α) s = .ok a s := rfl
@[simp] theorem M.get_apply (s : State) : (get : M State) s = .ok s s := rfl
@[simp] theorem M.set_apply (t s : State) : (set t : M PUnit) s = .ok ⟨⟩ t := rfl
@[simp] theorem M.modify_apply (f : State → State) (s : State) : (modify f : M PUnit) s = .ok ⟨⟩ (f s) := rfl
@[simp] theorem refuse_apply (st : Status) (s : State) : (refuse st : M α) s = .error (.refused st) s := rfl
@[simp] theorem raiseFault_apply (c : FaultCause) (i : Word) (s : State) :
    (raiseFault c i : M α) s = .error .raised (s.recordFault c i) := rfl

theorem M.bind_of_ok {x : M α} {f : α → M β} {s t : State} {a : α} (h : x s = .ok a t) : (x >>= f) s = f a t := by
  rw [M.bind_apply, h]

theorem M.bind_of_error {x : M α} {f : α → M β} {s t : State} {e : Stop} (h : x s = .error e t) :
    (x >>= f) s = .error e t := by
  rw [M.bind_apply, h]

/-- A choice between two pieces of pseudocode, run. -/
theorem M.ite_apply {c : Prop} [Decidable c] (x y : M α) (s : State) :
    (if c then x else y : M α) s = if c then x s else y s := by split <;> rfl

theorem M.ite_of_true {b : Bool} (h : b = true) (x y : M α) (s : State) :
    (if b = true then x else y : M α) s = x s := by rw [if_pos h]

theorem M.ite_of_false {b : Bool} (h : b = false) (x y : M α) (s : State) :
    (if b = true then x else y : M α) s = y s := by rw [if_neg (by simp [h])]

/-- A sequence ends normally exactly when both parts do. -/
theorem M.bind_ok_iff {x : M α} {f : α → M β} {s u : State} {b : β} :
    (x >>= f) s = .ok b u ↔ ∃ a t, x s = .ok a t ∧ f a t = .ok b u := by
  rw [M.bind_apply]
  constructor
  · intro h
    cases hx : x s with
    | ok a t => rw [hx] at h; exact ⟨a, t, rfl, h⟩
    | error e t => rw [hx] at h; cases h
  · rintro ⟨a, t, hx, hf⟩; rw [hx]; exact hf

/-- A sequence stops exactly when its first part stops, or it ends normally and the second part stops. -/
theorem M.bind_error_iff {x : M α} {f : α → M β} {s u : State} {e : Stop} :
    (x >>= f) s = .error e u ↔ x s = .error e u ∨ ∃ a t, x s = .ok a t ∧ f a t = .error e u := by
  rw [M.bind_apply]
  constructor
  · intro h
    cases hx : x s with
    | ok a t => rw [hx] at h; exact .inr ⟨a, t, rfl, h⟩
    | error e' t => rw [hx] at h; cases h; exact .inl rfl
  · rintro (hx | ⟨a, t, hx, hf⟩)
    · rw [hx]
    · rw [hx]; exact hf

@[simp] theorem require_true (st : Status) (s : State) : require true st s = .ok () s := rfl
@[simp] theorem require_false (st : Status) (s : State) : require false st s = .error (.refused st) s := rfl

/-- A check either holds and changes nothing, or refuses and changes nothing. -/
theorem require_cases (b : Bool) (st : Status) (s : State) :
    (b = true ∧ require b st s = .ok () s) ∨ (b = false ∧ require b st s = .error (.refused st) s) := by
  cases b
  · exact .inr ⟨rfl, rfl⟩
  · exact .inl ⟨rfl, rfl⟩

/-! ## Memory cells and voices -/

theorem loadCell_of_lt {sp : Space} {i : Nat} {s : State} (h : i < s.spaceSize sp) :
    loadCell sp i s = .ok (s.peek sp i) s := if_pos h

theorem storeCell_of_lt {sp : Space} {i : Nat} {w : Word} {s : State} (h : i < s.spaceSize sp) :
    storeCell sp i w s = .ok () (s.poke sp i w) := if_pos h

/-- All that reading a cell can do. -/
theorem loadCell_cases (sp : Space) (i : Nat) (s : State) :
    (i < s.spaceSize sp ∧ loadCell sp i s = .ok (s.peek sp i) s)
      ∨ (s.spaceSize sp ≤ i ∧ loadCell sp i s = .error (.fault (.noCell sp i)) s) := by
  by_cases h : i < s.spaceSize sp
  · exact .inl ⟨h, loadCell_of_lt h⟩
  · exact .inr ⟨by omega, if_neg h⟩

/-- All that writing a cell can do. -/
theorem storeCell_cases (sp : Space) (i : Nat) (w : Word) (s : State) :
    (i < s.spaceSize sp ∧ storeCell sp i w s = .ok () (s.poke sp i w))
      ∨ (s.spaceSize sp ≤ i ∧ storeCell sp i w s = .error (.fault (.noCell sp i)) s) := by
  by_cases h : i < s.spaceSize sp
  · exact .inl ⟨h, storeCell_of_lt h⟩
  · exact .inr ⟨by omega, if_neg h⟩

@[simp] theorem State.spaceSize_poke (s : State) (sp sp' : Space) (i : Nat) (w : Word) :
    (s.poke sp i w).spaceSize sp' = s.spaceSize sp' := rfl

theorem voiceAt_of_has {v : Nat} {s : State} (h : s.hasVoice v = true) : voiceAt v s = .ok (s.voice v) s := if_pos h

theorem putVoice_of_has {v : Nat} {x : Voice} {s : State} (h : s.hasVoice v = true) :
    putVoice v x s = .ok () (s.setVoice v x) := if_pos h

/-- All that reading a voice's bank can do. -/
theorem voiceAt_cases (v : Nat) (s : State) :
    (s.hasVoice v = true ∧ voiceAt v s = .ok (s.voice v) s)
      ∨ (s.hasVoice v = false ∧ voiceAt v s = .error (.fault (.noVoice v)) s) := by
  cases h : s.hasVoice v
  · exact .inr ⟨rfl, if_neg (by simp [h])⟩
  · exact .inl ⟨rfl, voiceAt_of_has h⟩

/-- All that writing a voice's bank can do. -/
theorem putVoice_cases (v : Nat) (x : Voice) (s : State) :
    (s.hasVoice v = true ∧ putVoice v x s = .ok () (s.setVoice v x))
      ∨ (s.hasVoice v = false ∧ putVoice v x s = .error (.fault (.noVoice v)) s) := by
  cases h : s.hasVoice v
  · exact .inr ⟨rfl, if_neg (by simp [h])⟩
  · exact .inl ⟨rfl, putVoice_of_has h⟩

/-! ## Loops -/

@[simp] theorem forFrom_zero (a : Nat) (body : Nat → M Unit) : forFrom 0 a body = pure () := rfl

theorem forFrom_succ (n a : Nat) (body : Nat → M Unit) :
    forFrom (n + 1) a body = (do body a; forFrom n (a + 1) body) := rfl

/-- A loop whose every round ends normally and carries `P` from `i` to `i + 1` ends normally and carries `P` to its
end. -/
theorem forFrom_ok {P : Nat → State → Prop} {body : Nat → M Unit} (n a : Nat)
    (h : ∀ i s, a ≤ i → i < a + n → P i s → ∃ t, body i s = .ok () t ∧ P (i + 1) t) {s : State} (hs : P a s) :
    ∃ t, forFrom n a body s = .ok () t ∧ P (a + n) t := by
  induction n generalizing a s with
  | zero => exact ⟨s, rfl, hs⟩
  | succ n ih =>
    obtain ⟨t, ht, hP⟩ := h a s (by omega) (by omega) hs
    obtain ⟨u, hu, hQ⟩ := ih (a + 1) (fun i s h1 h2 => h i s (by omega) (by omega)) hP
    refine ⟨u, ?_, ?_⟩
    · rw [forFrom_succ, M.bind_of_ok ht]; exact hu
    · rwa [show a + (n + 1) = a + 1 + n by omega]

/-! ## What pseudocode keeps, however it ends -/

/-- Run from a state with `P`, the pseudocode leaves a state with `P`, whether it ends normally or stops. -/
def Keeps (P : State → Prop) (x : M α) : Prop :=
  ∀ s, P s → (∀ a t, x s = .ok a t → P t) ∧ (∀ e t, x s = .error e t → P t)

theorem keeps_pure (P : State → Prop) (a : α) : Keeps P (pure a : M α) := fun s hs =>
  ⟨(fun _ _ h => by cases h; exact hs), fun _ _ h => by cases h⟩

theorem keeps_get (P : State → Prop) : Keeps P (get : M State) := fun s hs =>
  ⟨(fun _ _ h => by cases h; exact hs), fun _ _ h => by cases h⟩

theorem keeps_modify {P : State → Prop} {f : State → State} (hf : ∀ s, P s → P (f s)) :
    Keeps P (modify f : M PUnit) := fun s hs =>
  ⟨(fun _ _ h => by cases h; exact hf s hs), fun _ _ h => by cases h⟩

theorem keeps_bind {P : State → Prop} {x : M α} {f : α → M β} (hx : Keeps P x) (hf : ∀ a, Keeps P (f a)) :
    Keeps P (x >>= f) := fun s hs => by
  constructor
  · intro b u h
    obtain ⟨a, t, h1, h2⟩ := M.bind_ok_iff.1 h
    exact (hf a t ((hx s hs).1 _ _ h1)).1 _ _ h2
  · intro e u h
    rcases M.bind_error_iff.1 h with h1 | ⟨a, t, h1, h2⟩
    · exact (hx s hs).2 _ _ h1
    · exact (hf a t ((hx s hs).1 _ _ h1)).2 _ _ h2

theorem keeps_refuse (P : State → Prop) (st : Status) : Keeps P (refuse st : M α) := fun s hs =>
  ⟨(fun _ _ h => by cases h), fun _ _ h => by cases h; exact hs⟩

theorem keeps_raise {P : State → Prop} {c : FaultCause} {i : Word} (h : ∀ s, P s → P (s.recordFault c i)) :
    Keeps P (raiseFault c i : M α) := fun s hs =>
  ⟨(fun _ _ h => by cases h), fun _ _ he => by cases he; exact h s hs⟩

theorem keeps_require (P : State → Prop) (b : Bool) (st : Status) : Keeps P (require b st) := by
  cases b
  · exact keeps_refuse P st
  · exact keeps_pure P ()

theorem keeps_loadCell (P : State → Prop) (sp : Space) (i : Nat) : Keeps P (loadCell sp i) := fun s hs => by
  rcases loadCell_cases sp i s with ⟨-, h⟩ | ⟨-, h⟩ <;> rw [h] <;>
    exact ⟨(fun _ _ h => by cases h <;> exact hs), fun _ _ h => by cases h <;> exact hs⟩

theorem keeps_storeCell {P : State → Prop} {sp : Space} {i : Nat} {w : Word}
    (hp : ∀ s, i < s.spaceSize sp → P s → P (s.poke sp i w)) : Keeps P (storeCell sp i w) := fun s hs => by
  rcases storeCell_cases sp i w s with ⟨hi, h⟩ | ⟨-, h⟩ <;> rw [h]
  · exact ⟨(fun _ _ h => by cases h; exact hp s hi hs), fun _ _ h => by cases h⟩
  · exact ⟨(fun _ _ h => by cases h), fun _ _ h => by cases h; exact hs⟩

theorem keeps_voiceAt (P : State → Prop) (v : Nat) : Keeps P (voiceAt v) := fun s hs => by
  rcases voiceAt_cases v s with ⟨-, h⟩ | ⟨-, h⟩ <;> rw [h] <;>
    exact ⟨(fun _ _ h => by cases h <;> exact hs), fun _ _ h => by cases h <;> exact hs⟩

theorem keeps_putVoice {P : State → Prop} {v : Nat} {x : Voice}
    (hp : ∀ s, s.hasVoice v = true → P s → P (s.setVoice v x)) : Keeps P (putVoice v x) := fun s hs => by
  rcases putVoice_cases v x s with ⟨hi, h⟩ | ⟨-, h⟩ <;> rw [h]
  · exact ⟨(fun _ _ h => by cases h; exact hp s hi hs), fun _ _ h => by cases h⟩
  · exact ⟨(fun _ _ h => by cases h), fun _ _ h => by cases h; exact hs⟩

theorem keeps_forFrom {P : State → Prop} {body : Nat → M Unit} (h : ∀ i, Keeps P (body i)) (n a : Nat) :
    Keeps P (forFrom n a body) := by
  induction n generalizing a with
  | zero => exact keeps_pure P ()
  | succ n ih => exact keeps_bind (h a) fun _ => ih (a + 1)

/-- The canonical form of the memories is kept by every write. -/
theorem keeps_storeCell_wf (sp : Space) (i : Nat) (w : Word) :
    Keeps (fun s => s.mem.wf = true) (storeCell sp i w) :=
  keeps_storeCell fun _ _ h => State.poke_wf sp i w h

/-! ## Commands -/

/-- All that a command can come to (R14). -/
theorem outcomeOf_cases (body : M (List Word)) (s : State) :
    (∃ rs t, body s = .ok rs t ∧ outcomeOf body s = .next (t.respond .ok rs))
      ∨ (∃ t, body s = .error .raised t ∧ outcomeOf body s = .next (t.respond .fault []))
      ∨ (∃ st t, body s = .error (.refused st) t ∧ outcomeOf body s = .next (s.respond st []))
      ∨ (∃ f t, body s = .error (.fault f) t ∧ outcomeOf body s = .fault f) := by
  unfold outcomeOf
  cases body s with
  | ok rs t => exact .inl ⟨rs, t, rfl, rfl⟩
  | error e t =>
    cases e with
    | raised => exact .inr (.inl ⟨t, rfl, rfl⟩)
    | refused st => exact .inr (.inr (.inl ⟨st, t, rfl, rfl⟩))
    | fault f => exact .inr (.inr (.inr ⟨f, t, rfl, rfl⟩))

/-- All that admission can do (R92): let the command pass, or refuse it for the fault lock, or for the running state. -/
theorem admit_cases (lock : Bool) (need : RunNeed) (s : State) :
    ((lock || s.fault == 0) = false ∧ admission lock need s = .error (.refused .errFaulted) s)
      ∨ ((lock || s.fault == 0) = true ∧ need.met s.running = false ∧ admission lock need s = .error (.refused .errState) s)
      ∨ ((lock || s.fault == 0) = true ∧ need.met s.running = true ∧ admission lock need s = .ok () s) := by
  have hdef : admission lock need s
      = (require (lock || s.fault == 0) .errFaulted >>= fun _ => require (need.met s.running) .errState) s := rfl
  rw [hdef, M.bind_apply]
  cases h1 : (lock || s.fault == 0) <;> cases h2 : need.met s.running <;> simp

/-- An admitted command is its own checks and pseudocode. -/
theorem command_of_admitted {lock : Bool} {need : RunNeed} {body : M (List Word)} {s : State}
    (h1 : (lock || s.fault == 0) = true) (h2 : need.met s.running = true) :
    command lock need body s = outcomeOf body s := by
  have ha : admission lock need s = .ok () s := by
    rcases admit_cases lock need s with ⟨h, -⟩ | ⟨-, h, -⟩ | ⟨-, -, h⟩
    · rw [h1] at h; cases h
    · rw [h2] at h; cases h
    · exact h
  unfold command outcomeOf
  rw [M.bind_of_ok ha]

/-- A working command in a ready block is its own checks and pseudocode. -/
theorem workCommand_of_ready {body : M (List Word)} {s : State} (h : s.ready) :
    workCommand body s = outcomeOf body s :=
  command_of_admitted (by simp [h.2]) h.1

/-! ## Unit functions that neither load, store nor raise -/

theorem lpfProcess_apply (x : F32) (s : State) :
    lpfProcess x s = .ok (s.lpf.next x).value (s.setLpf (s.lpf.next x)) := rfl

theorem envProcess_apply (u : Nat) (x : F32) (s : State) :
    envProcess u x s = .ok ((s.env u).next x).value (s.setEnv u ((s.env u).next x)) := rfl

theorem zdProcess_apply (x : F32) (s : State) :
    zdProcess x s = .ok (crossesZero x s.zdPrev) (s.setZdPrev x) := rfl

/-- `CdProcess` ends normally with the update `State.detect` describes (R140). -/
theorem cdProcess_apply (x : F32) (s : State) :
    cdProcess x s = .ok (s.detect x).2 (s.detect x).1 := by
  unfold cdProcess State.detect
  rw [M.bind_of_ok (M.get_apply s)]
  cases h : s.ctl.lpfEn <;> simp only [Bool.false_eq_true, if_true, if_false] <;> rfl

end Sys2Proof.Machine
end

