-- ==== Sys2Proof/Laws/Units.lean ====
section
/-! SUPPORT. What the unit functions of the tracker, the voices, the engine and the pipeline do, said once. -/

namespace Sys2Proof.Machine

variable {α β : Type}

/-! ## Only the memory changes -/

/-- `t` is `s` but for the content of the memories, which are canonical. -/
def MemOnly (s t : State) : Prop := t = s.setMem t.mem ∧ t.mem.wf = true

theorem MemOnly.refl {s : State} (h : s.mem.wf = true) : MemOnly s s := ⟨rfl, h⟩

theorem MemOnly.spaceSize {s t : State} (h : MemOnly s t) (sp : Space) : t.spaceSize sp = s.spaceSize sp := by
  rw [h.1]; rfl

theorem MemOnly.trans {s t u : State} (h : MemOnly s t) (h' : MemOnly t u) : MemOnly s u :=
  ⟨by rw [h'.1, h.1]; rfl, h'.2⟩

theorem MemOnly.poke {s t : State} (h : MemOnly s t) (sp : Space) (i : Nat) (w : Word) : MemOnly s (t.poke sp i w) :=
  ⟨by rw [h.1]; rfl, State.poke_wf sp i w h.2⟩

theorem MemOnly.cfg {s t : State} (h : MemOnly s t) : t.cfg = s.cfg := by rw [h.1]; rfl

/-- A loop that copies cell `f i` of one space to cell `g i` of another, for `i` from 0 to `n`: it ends normally, and only
the cells written differ. -/
theorem copyLoop {s : State} {a b : Space} {f g : Nat → Nat} {n : Nat} (hab : a ≠ b) (hwf : s.mem.wf = true)
    (hf : ∀ i, i < n → f i < s.spaceSize a) (hg : ∀ i, i < n → g i < s.spaceSize b)
    (hinj : ∀ i j, i < n → j < n → g i = g j → i = j) :
    ∃ t, forFrom n 0 (fun i => loadCell a (f i) >>= fun w => storeCell b (g i) w) s = .ok () t
      ∧ MemOnly s t
      ∧ (∀ i, i < n → t.peek b (g i) = s.peek a (f i))
      ∧ (∀ sp k, (sp ≠ b ∨ ∀ i, i < n → k ≠ g i) → t.peek sp k = s.peek sp k) := by
  have key := forFrom_ok (P := fun i t => MemOnly s t ∧ (∀ j, j < i → j < n → t.peek b (g j) = s.peek a (f j))
      ∧ (∀ sp k, (sp ≠ b ∨ ∀ j, j < i → j < n → k ≠ g j) → t.peek sp k = s.peek sp k))
    (body := fun i => loadCell a (f i) >>= fun w => storeCell b (g i) w) n 0 ?_ (s := s) ?_
  · obtain ⟨t, ht, h1, h2, h3⟩ := key
    refine ⟨t, ht, h1, fun i hi => h2 i (by omega) hi, fun sp k hk => h3 sp k ?_⟩
    exact hk.imp id fun h j _ hj => h j hj
  · intro i t _ hi ⟨h1, h2, h3⟩
    have hi' : i < n := by omega
    refine ⟨t.poke b (g i) (t.peek a (f i)), ?_, h1.poke _ _ _, ?_, ?_⟩
    · rw [M.bind_of_ok (loadCell_of_lt (by rw [h1.spaceSize]; exact hf i hi'))]
      exact storeCell_of_lt (by rw [h1.spaceSize]; exact hg i hi')
    · intro j hj hjn
      by_cases hji : j = i
      · subst hji
        rw [State.peek_poke_same _ _ _ h1.2]
        exact h3 a (f j) (.inl hab)
      · rw [State.peek_poke_ne _ _ (.inr fun h => hji (hinj j i hjn hi' h))]
        exact h2 j (by omega) hjn
    · intro sp k hk
      have hne : sp ≠ b ∨ k ≠ g i := hk.imp id fun h => h i (by omega) hi'
      rw [State.peek_poke_ne _ _ hne]
      exact h3 sp k (hk.imp id fun h j hj hjn => h j (by omega) hjn)
  · exact ⟨.refl hwf, fun j hj => by omega, fun _ _ _ => rfl⟩

/-! ## Detector and tracker: what they leave alone -/

section detect
variable (s : State) (x : F32)
theorem State.detect_frame : (s.detect x).1 = ((((s.setLpf (s.detect x).1.lpf).setEnv0 (s.detect x).1.env0).setEnv1
    (s.detect x).1.env1).setCd (s.detect x).1.cd) := by
  unfold State.detect; cases s.ctl.lpfEn <;> rfl
@[simp] theorem State.detect_cfg : (s.detect x).1.cfg = s.cfg := by rw [State.detect_frame]; rfl
@[simp] theorem State.detect_ctl : (s.detect x).1.ctl = s.ctl := by rw [State.detect_frame]; rfl
@[simp] theorem State.detect_zdPrev : (s.detect x).1.zdPrev = s.zdPrev := by rw [State.detect_frame]; rfl
@[simp] theorem State.detect_ct : (s.detect x).1.ct = s.ct := by rw [State.detect_frame]; rfl
@[simp] theorem State.detect_an : (s.detect x).1.an = s.an := by rw [State.detect_frame]; rfl
@[simp] theorem State.detect_voices : (s.detect x).1.voices = s.voices := by rw [State.detect_frame]; rfl
@[simp] theorem State.detect_eng : (s.detect x).1.eng = s.eng := by rw [State.detect_frame]; rfl
@[simp] theorem State.detect_pipe : (s.detect x).1.pipe = s.pipe := by rw [State.detect_frame]; rfl
@[simp] theorem State.detect_wmb : (s.detect x).1.wmb = s.wmb := by rw [State.detect_frame]; rfl
@[simp] theorem State.detect_freq : (s.detect x).1.freq = s.freq := by rw [State.detect_frame]; rfl
@[simp] theorem State.detect_ctrl : (s.detect x).1.ctrl = s.ctrl := by rw [State.detect_frame]; rfl
@[simp] theorem State.detect_running : (s.detect x).1.running = s.running := by rw [State.detect_frame]; rfl
@[simp] theorem State.detect_fault : (s.detect x).1.fault = s.fault := by rw [State.detect_frame]; rfl
@[simp] theorem State.detect_faultInfo : (s.detect x).1.faultInfo = s.faultInfo := by rw [State.detect_frame]; rfl
@[simp] theorem State.detect_mem : (s.detect x).1.mem = s.mem := by rw [State.detect_frame]; rfl
@[simp] theorem State.detect_arenaCap : (s.detect x).1.arenaCap = s.arenaCap := by rw [State.detect_frame]; rfl
@[simp] theorem State.detect_port : (s.detect x).1.port = s.port := by rw [State.detect_frame]; rfl
@[simp] theorem State.detect_sched : (s.detect x).1.sched = s.sched := by rw [State.detect_frame]; rfl
@[simp] theorem State.detect_resp : (s.detect x).1.resp = s.resp := by rw [State.detect_frame]; rfl
end detect

/-- `CtProcess` on a ring that has the cell written (R145). -/
theorem ctProcess_apply {x : F32} {s : State} (hr : s.running = true) (hw : s.ct.wr.toNat < s.cfg.ring.toNat) :
    ctProcess x s = .ok (s.track x).2 (s.track x).1 := by
  have hlt : s.ct.wr.toNat < s.spaceSize .ring := by
    unfold State.spaceSize; rw [if_pos hr]; exact hw
  have tail : ∀ u : State, (cdProcess x >>= fun info => (do
      if info.start then modify (fun s => s.setCt (s.ct.assign s.cfg.ring))
      let s ← get
      pure { start := s.ct.cycStart, stop := s.ct.cycEnd, length := s.ct.cycLen, fresh := info.start : Cycle })) u
      = (let d := u.detect x
         let ct := if d.2.start then d.1.ct.assign d.1.cfg.ring else d.1.ct
         .ok { start := ct.cycStart, stop := ct.cycEnd, length := ct.cycLen, fresh := d.2.start } (d.1.setCt ct)) := by
    intro u
    rw [M.bind_of_ok (cdProcess_apply _ _)]
    generalize u.detect x = d
    obtain ⟨v, l, b⟩ := d
    cases b <;> rfl
  unfold ctProcess State.track
  rw [M.bind_of_ok (M.get_apply s), M.bind_of_ok (storeCell_of_lt hlt), M.bind_of_ok (M.modify_apply _ _),
    M.bind_of_ok (zdProcess_apply _ _)]
  rcases Bool.eq_false_or_eq_true (fle (fmul x s.zdPrev) pzero) with hz | hz
  · refine (M.ite_of_true (show crossesZero x s.zdPrev = true from hz) _ _ _).trans ?_
    rw [M.bind_of_ok (M.modify_apply _ _)]
    exact (tail _).trans (by simp only [State.detect_ct, State.detect_cfg, hz, if_true]; rfl)
  · refine (M.ite_of_false (show crossesZero x s.zdPrev = false from hz) _ _ _).trans ?_
    exact (tail _).trans (by simp only [State.detect_ct, State.detect_cfg, hz, Bool.false_eq_true, if_false]; rfl)

/-! ## Voices and engine -/

theorem vbufIndex_lt {wt v i nv : Nat} {p : Bool} (hv : v < nv) (hi : i < wt) : vbufIndex wt v p i < 2 * nv * wt := by
  unfold vbufIndex
  have hp : p.toNat ≤ 1 := by cases p <;> decide
  have h : (2 * v + p.toNat + 1) * wt ≤ 2 * nv * wt := Nat.mul_le_mul_right _ (by omega)
  rw [Nat.add_mul, Nat.one_mul] at h
  omega

theorem floorU_lt {a : F32} {l : Word} {i : Nat} (h : floorU a l = some i) : i < l.toNat := by
  unfold floorU at h
  split at h
  · cases h
  · simp only at h
    split at h
    · cases h
    · cases h; omega

/-- `VoiceNext` of a voice that can play (R193). -/
theorem voiceNext_of_plays {s : State} {v : Nat} (hr : s.running = true) (h : s.voicePlays v) :
    voiceNext v s = .ok (s.voiceSample v) (s.setVoice v (s.voice v).advance) := by
  obtain ⟨hv, hw, hs, hl, hf⟩ := h
  obtain ⟨i0, hi0⟩ := Option.isSome_iff_exists.1 hf
  have hlt := floorU_lt hi0
  have hnv : v < s.cfg.nv.toNat := by
    unfold State.hasVoice at hv; simp at hv; exact hv.1
  have hcell : ∀ i, i < (s.voice v).actLen.toNat →
      vbufIndex s.cfg.wt.toNat v (s.voice v).act i < s.spaceSize .vbuf := by
    intro i hi
    unfold State.spaceSize
    rw [if_pos hr]
    exact vbufIndex_lt hnv (by omega)
  unfold voiceNext State.voiceSample
  rw [M.bind_of_ok (voiceAt_of_has hv)]
  refine (M.ite_of_false (by simp [hw, hs]) _ _ _).trans ?_
  rw [hi0]
  simp only [show fmul (s.voice v).phase (u2f (s.voice v).actLen) = (s.voice v).position from rfl, hi0, Option.getD_some]
  rw [M.bind_of_ok (M.get_apply s), M.bind_of_ok (loadCell_of_lt (hcell _ hlt)),
    M.bind_of_ok (loadCell_of_lt (hcell _ (Nat.mod_lt _ (by omega)))), M.bind_of_ok (putVoice_of_has hv)]
  rfl

/-- A voice without a waveform or a rate (R193). -/
theorem voiceNext_notReady {s : State} {v : Nat} (hv : s.hasVoice v = true)
    (h : (s.voice v).waveSet = false ∨ (s.voice v).rateSet = false) :
    voiceNext v s = .error .raised (s.recordFault .voiceNotReady (u32 v)) := by
  unfold voiceNext
  rw [M.bind_of_ok (voiceAt_of_has hv)]
  refine (M.ite_of_true (by rcases h with h | h <;> simp [h]) _ _ _).trans ?_
  exact M.bind_of_error rfl

/-- A voice whose position is out of its buffer (R193). -/
theorem voiceNext_index {s : State} {v : Nat} (hv : s.hasVoice v = true) (hw : (s.voice v).waveSet = true)
    (hs : (s.voice v).rateSet = true) (h : floorU (s.voice v).position (s.voice v).actLen = none) :
    voiceNext v s = .error .raised (s.recordFault .voiceIndex (u32 v)) := by
  unfold voiceNext
  rw [M.bind_of_ok (voiceAt_of_has hv)]
  refine (M.ite_of_false (by simp [hw, hs]) _ _ _).trans ?_
  rw [h]
  rfl

theorem State.voice_of_setVoice_ne {s : State} {v u : Nat} {x : Voice} (h : v ≠ u) :
    (s.setVoice v x).voice u = s.voice u := by rw [State.voice_setVoice, if_neg (by tauto)]

theorem State.voicePlays_setVoice {s : State} {v u : Nat} {x : Voice} (h : v ≠ u) (hp : s.voicePlays u) :
    (s.setVoice v x).voicePlays u := by
  unfold State.voicePlays
  rw [State.voice_of_setVoice_ne h]
  exact hp

theorem State.voiceSample_setVoice {s : State} {v u : Nat} {x : Voice} (h : v ≠ u) :
    (s.setVoice v x).voiceSample u = s.voiceSample u := by
  unfold State.voiceSample
  rw [State.voice_of_setVoice_ne h]
  rfl

theorem State.advancedTo_zero (s : State) : s.advancedTo 0 = s := by
  unfold State.advancedTo
  have : (s.voices.mapIdx fun v x => if v < 0 then x.advance else x) = s.voices := by
    ext i hi; simp
  rw [this]; rfl

/-- Advancing one voice more. -/
theorem State.advancedTo_succ (s : State) (n : Nat) :
    s.advancedTo (n + 1) = (s.advancedTo n).setVoice n (s.voice n).advance := by
  unfold State.advancedTo State.setVoice
  simp only [State.setVoices_voices]
  have : (s.voices.mapIdx fun v x => if v < n + 1 then x.advance else x)
      = (s.voices.mapIdx fun v x => if v < n then x.advance else x).setIfInBounds n (s.voice n).advance := by
    apply Vector.ext
    intro i hi
    rw [Vector.getElem_setIfInBounds]
    simp only [Vector.getElem_mapIdx]
    by_cases h : n = i
    · subst h
      rw [if_pos (by omega), if_pos rfl]
      simp [State.voice, hi]
    · rw [if_neg h]
      by_cases h2 : i < n
      · rw [if_pos (by omega), if_pos h2]
      · rw [if_neg (by omega), if_neg h2]
  rw [this]
  rfl

theorem State.voice_advancedTo_ge (s : State) {n u : Nat} (h : n ≤ u) : (s.advancedTo n).voice u = s.voice u := by
  induction n with
  | zero => rw [s.advancedTo_zero]
  | succ n ih => rw [s.advancedTo_succ, State.voice_of_setVoice_ne (by omega), ih (by omega)]

theorem State.voicePlays_advancedTo {s : State} {n u : Nat} (h : n ≤ u) (hp : s.voicePlays u) :
    (s.advancedTo n).voicePlays u := by
  unfold State.voicePlays
  rw [State.voice_advancedTo_ge s h]
  exact hp

theorem State.voiceSample_advancedTo {s : State} {n u : Nat} (h : n ≤ u) :
    (s.advancedTo n).voiceSample u = s.voiceSample u := by
  unfold State.voiceSample
  rw [State.voice_advancedTo_ge s h]
  rfl

/-- The mix goes as far as the voices play (R196): after `j` of them it stands at their mix and they have advanced. -/
theorem mixVoices_reaches {s : State} (hr : s.running = true) (n j : Nat) (hj : j ≤ n)
    (h : ∀ v, v < j → s.voicePlays v) :
    mixVoices s.eng.amp n 0 pzero s = mixVoices s.eng.amp (n - j) j (s.mixOf j) (s.advancedTo j) := by
  induction j with
  | zero => rw [s.advancedTo_zero]; rfl
  | succ j ih =>
    rw [ih (by omega) fun v hv => h v (by omega)]
    obtain ⟨m, hm⟩ : ∃ m, n - j = m + 1 := ⟨n - j - 1, by omega⟩
    rw [hm, show n - (j + 1) = m by omega]
    show (voiceNext j >>= fun y => mixVoices s.eng.amp m (j + 1) (fadd (s.mixOf j) (fmul y s.eng.amp))) _ = _
    rw [M.bind_of_ok (voiceNext_of_plays (s := s.advancedTo j) hr
      (State.voicePlays_advancedTo (Nat.le_refl j) (h j (by omega))))]
    rw [State.voiceSample_advancedTo (Nat.le_refl j), State.voice_advancedTo_ge s (Nat.le_refl j), ← s.advancedTo_succ]
    rfl

/-- All voices play (R196). -/
theorem mixVoices_of_play {s : State} (hr : s.running = true) (n : Nat) (h : ∀ v, v < n → s.voicePlays v) :
    mixVoices s.eng.amp n 0 pzero s = .ok (s.mixOf n) (s.advancedTo n) := by
  rw [mixVoices_reaches hr n n (Nat.le_refl n) h, Nat.sub_self]
  rfl

/-- The first voice that does not play stops the mix (R196, R197). -/
theorem mixVoices_of_raise {s : State} (hr : s.running = true) (n j : Nat) (hj : j < n)
    (h : ∀ v, v < j → s.voicePlays v) {e : Stop} {t : State} (hn : voiceNext j (s.advancedTo j) = .error e t) :
    mixVoices s.eng.amp n 0 pzero s = .error e t := by
  rw [mixVoices_reaches hr n j (by omega) h]
  obtain ⟨m, hm⟩ : ∃ m, n - j = m + 1 := ⟨n - j - 1, by omega⟩
  rw [hm]
  exact M.bind_of_error hn

/-- The round-robin assignment when the voice at the index exists (R196). -/
theorem assignPeriod_apply {s : State} (c : Cycle) (h : s.hasVoice s.eng.rr.toNat = true) :
    assignPeriod c s = .ok () (s.assigned c) := by
  unfold assignPeriod State.assigned
  by_cases hc : c.fresh = true ∧ 0 < c.length.toNat
  · have hl : (c.length != 0) = true := by
      rw [bne_iff_ne]; intro h0; rw [h0] at hc; exact absurd hc.2 (by decide)
    rw [if_pos hc]
    refine (M.ite_of_true (by rw [hc.1, hl]; rfl) _ _ _).trans ?_
    rw [M.bind_of_ok (M.get_apply s)]
    have hs : voiceSetRate s.eng.rr.toNat c.length s
        = .ok () (s.setVoice s.eng.rr.toNat ((s.voice s.eng.rr.toNat).withRate c.length)) := by
      unfold voiceSetRate
      rw [M.bind_of_ok (voiceAt_of_has h)]
      exact putVoice_of_has h
    rw [M.bind_of_ok hs]
    rfl
  · rw [if_neg hc]
    refine (M.ite_of_false ?_ _ _ _).trans rfl
    rw [Bool.and_eq_false_iff]
    by_cases hf : c.fresh = true
    · right
      have : c.length.toNat = 0 := by
        by_contra h0; exact hc ⟨hf, by omega⟩
      have h0 : c.length = 0 := BitVec.eq_of_toNat_eq this
      rw [h0]; rfl
    · left; simpa using hf

section track
variable (s : State) (x : F32)
theorem State.track_frame : (s.track x).1
    = (((((((s.setMem (s.track x).1.mem).setLpf (s.track x).1.lpf).setEnv0 (s.track x).1.env0).setEnv1
      (s.track x).1.env1).setCd (s.track x).1.cd).setCt (s.track x).1.ct).setZdPrev x) := by
  unfold State.track
  simp only
  rw [State.detect_frame]
  rfl
@[simp] theorem State.track_mem : (s.track x).1.mem = (s.poke .ring s.ct.wr.toNat x).mem := by
  unfold State.track
  simp only [State.setCt_mem, State.detect_mem, State.setZdPrev_mem]
@[simp] theorem State.track_cfg : (s.track x).1.cfg = s.cfg := by rw [State.track_frame]; rfl
@[simp] theorem State.track_ctl : (s.track x).1.ctl = s.ctl := by rw [State.track_frame]; rfl
@[simp] theorem State.track_an : (s.track x).1.an = s.an := by rw [State.track_frame]; rfl
@[simp] theorem State.track_voices : (s.track x).1.voices = s.voices := by rw [State.track_frame]; rfl
@[simp] theorem State.track_eng : (s.track x).1.eng = s.eng := by rw [State.track_frame]; rfl
@[simp] theorem State.track_pipe : (s.track x).1.pipe = s.pipe := by rw [State.track_frame]; rfl
@[simp] theorem State.track_wmb : (s.track x).1.wmb = s.wmb := by rw [State.track_frame]; rfl
@[simp] theorem State.track_freq : (s.track x).1.freq = s.freq := by rw [State.track_frame]; rfl
@[simp] theorem State.track_ctrl : (s.track x).1.ctrl = s.ctrl := by rw [State.track_frame]; rfl
@[simp] theorem State.track_running : (s.track x).1.running = s.running := by rw [State.track_frame]; rfl
@[simp] theorem State.track_fault : (s.track x).1.fault = s.fault := by rw [State.track_frame]; rfl
@[simp] theorem State.track_faultInfo : (s.track x).1.faultInfo = s.faultInfo := by rw [State.track_frame]; rfl
@[simp] theorem State.track_arenaCap : (s.track x).1.arenaCap = s.arenaCap := by rw [State.track_frame]; rfl
@[simp] theorem State.track_port : (s.track x).1.port = s.port := by rw [State.track_frame]; rfl
@[simp] theorem State.track_sched : (s.track x).1.sched = s.sched := by rw [State.track_frame]; rfl
@[simp] theorem State.track_resp : (s.track x).1.resp = s.resp := by rw [State.track_frame]; rfl
end track

/-- The engine reaches its mix in the tracked state (R196). -/
theorem engProcess_apply {s : State} {x : F32} (hr : s.running = true) (hw : s.ct.wr.toNat < s.cfg.ring.toNat)
    (hv : s.hasVoice s.eng.rr.toNat = true) :
    engProcess x s
      = mixVoices (s.tracked x).eng.amp (s.tracked x).cfg.nv.toNat 0 pzero (s.tracked x) := by
  unfold engProcess
  rw [M.bind_of_ok (ctProcess_apply hr hw),
    M.bind_of_ok (assignPeriod_apply _ (by unfold State.hasVoice at hv ⊢; simpa using hv)),
    M.bind_of_ok (M.get_apply _)]
  rfl

end Sys2Proof.Machine
end

