-- ==== Sys2Proof/Laws/Analyzer.lean ====
section
/-! SUPPORT. What the pieces of the analyzer do, said once. -/

namespace Sys2Proof.Machine

/-- `AnLoad` (spec/43_analyzer.md R160). -/
theorem anLoad_apply {s : State} (hr : s.running = true) (hwf : s.mem.wf = true) :
    ∃ u, anLoad s = .ok () u ∧ MemOnly s u
      ∧ (∀ i, i < s.cfg.win.toNat → u.peek .anRe i = s.peek .wmb i)
      ∧ (∀ sp k, (sp ≠ .anRe ∨ s.cfg.win.toNat ≤ k) → u.peek sp k = s.peek sp k) := by
  have hsz : ∀ sp, s.spaceSize sp = s.cfg.spaceSize sp := fun sp => if_pos hr
  obtain ⟨u, hu, h1, h2, h3⟩ := copyLoop (s := s) (a := .wmb) (b := .anRe) (n := s.cfg.win.toNat)
    (f := fun i => i) (g := fun i => i) (by decide) hwf
    (fun i hi => by rw [hsz]; exact hi) (fun i hi => by rw [hsz]; exact hi) (fun i j _ _ h => h)
  refine ⟨u, ?_, h1, h2, fun sp k hk => h3 sp k (hk.imp id fun h i hi => by omega)⟩
  unfold anLoad
  rw [M.bind_of_ok (M.get_apply s)]
  exact hu

/-- Cells `i` and `j` of a space exchanged (R162). -/
theorem swapCells_apply {s : State} {sp : Space} {i j : Nat} (hi : i < s.spaceSize sp) (hj : j < s.spaceSize sp) :
    swapCells sp i j s = .ok () ((s.poke sp i (s.peek sp j)).poke sp j (s.peek sp i)) := by
  unfold swapCells
  rw [M.bind_of_ok (loadCell_of_lt hi), M.bind_of_ok (loadCell_of_lt hj), M.bind_of_ok (storeCell_of_lt hi)]
  exact storeCell_of_lt hj

/-- One butterfly, as writes to the four cells (R162). -/
theorem butterfly_apply {s : State} {a b t : Nat} (hr : s.running = true) (ha : a < s.cfg.win.toNat)
    (hb : b < s.cfg.win.toNat) (ht : t < s.cfg.win.toNat / 2) :
    butterfly a b t s =
      (let tr := fsub (fmul (s.peek .anRe b) (s.peek .anTwr t)) (fmul (s.peek .anIm b) (s.peek .anTwi t))
       let ti := fadd (fmul (s.peek .anRe b) (s.peek .anTwi t)) (fmul (s.peek .anIm b) (s.peek .anTwr t))
       .ok () ((((s.poke .anRe a (fadd (s.peek .anRe a) tr)).poke .anIm a (fadd (s.peek .anIm a) ti)).poke .anRe b
          (fsub (s.peek .anRe a) tr)).poke .anIm b (fsub (s.peek .anIm a) ti))) := by
  have hsz : ∀ sp, s.spaceSize sp = s.cfg.spaceSize sp := fun sp => if_pos hr
  have h1 : ∀ {i}, i < s.cfg.win.toNat → i < s.spaceSize .anRe := fun h => by rw [hsz]; exact h
  have h2 : ∀ {i}, i < s.cfg.win.toNat → i < s.spaceSize .anIm := fun h => by rw [hsz]; exact h
  have h3 : t < s.spaceSize .anTwr := by rw [hsz]; exact ht
  have h4 : t < s.spaceSize .anTwi := by rw [hsz]; exact ht
  unfold butterfly
  rw [M.bind_of_ok (loadCell_of_lt h3), M.bind_of_ok (loadCell_of_lt h4), M.bind_of_ok (loadCell_of_lt (h1 hb)),
    M.bind_of_ok (loadCell_of_lt (h2 hb)), M.bind_of_ok (loadCell_of_lt (h1 ha)),
    M.bind_of_ok (loadCell_of_lt (h2 ha))]
  refine (M.bind_of_ok (storeCell_of_lt (h1 ha))).trans ?_
  refine (M.bind_of_ok (storeCell_of_lt (show _ < State.spaceSize (s.poke _ _ _) _ from h2 ha))).trans ?_
  refine (M.bind_of_ok (storeCell_of_lt (show _ < State.spaceSize ((s.poke _ _ _).poke _ _ _) _ from h1 hb))).trans ?_
  exact storeCell_of_lt (show _ < State.spaceSize (((s.poke _ _ _).poke _ _ _).poke _ _ _) _ from h2 hb)

/-- The magnitude of a bin (R163). -/
theorem binMagnitude_apply {s : State} {b : Nat} (hr : s.running = true) (hb : b < s.cfg.win.toNat) :
    binMagnitude b s = .ok (s.binMag b) s := by
  have hsz : ∀ sp, s.spaceSize sp = s.cfg.spaceSize sp := fun sp => if_pos hr
  unfold binMagnitude
  rw [M.bind_of_ok (loadCell_of_lt (by rw [hsz]; exact hb)), M.bind_of_ok (loadCell_of_lt (by rw [hsz]; exact hb))]
  rfl

/-- Every phase stored (R163). -/
theorem phaseLoop_apply {s : State} (hr : s.running = true) (hwf : s.mem.wf = true) :
    ∃ u, forFrom (s.cfg.win.toNat / 2) 0 (fun b => (do
          let im ← loadCell .anIm b
          let re ← loadCell .anRe b
          storeCell .anPhase b (atan2 im re))) s = .ok () u
      ∧ MemOnly s u
      ∧ (∀ b, b < s.cfg.win.toNat / 2 → u.peek .anPhase b = s.binPhase b)
      ∧ (∀ sp k, sp ≠ .anPhase → u.peek sp k = s.peek sp k) := by
  have hsz : ∀ sp, s.spaceSize sp = s.cfg.spaceSize sp := fun sp => if_pos hr
  have key := forFrom_ok (P := fun i t => MemOnly s t ∧ (∀ j, j < i → t.peek .anPhase j = s.binPhase j)
      ∧ (∀ sp k, sp ≠ .anPhase → t.peek sp k = s.peek sp k))
    (body := fun b => (do
          let im ← loadCell .anIm b
          let re ← loadCell .anRe b
          storeCell .anPhase b (atan2 im re))) (s.cfg.win.toNat / 2) 0 ?_ (s := s) ?_
  · obtain ⟨u, hu, h1, h2, h3⟩ := key
    exact ⟨u, hu, h1, fun b hb => h2 b (by omega), h3⟩
  · intro i t _ hi ⟨h1, h2, h3⟩
    refine ⟨t.poke .anPhase i (atan2 (t.peek .anIm i) (t.peek .anRe i)), ?_, h1.poke _ _ _, ?_, ?_⟩
    · rw [M.bind_of_ok (loadCell_of_lt (by rw [h1.spaceSize, hsz]; show i < s.cfg.win.toNat; omega)),
        M.bind_of_ok (loadCell_of_lt (by rw [h1.spaceSize, hsz]; show i < s.cfg.win.toNat; omega))]
      exact storeCell_of_lt (by rw [h1.spaceSize, hsz]; show i < s.cfg.win.toNat / 2; omega)
    · intro j hj
      by_cases hji : j = i
      · subst hji
        rw [State.peek_poke_same _ _ _ h1.2, h3 _ _ (by decide), h3 _ _ (by decide)]
        rfl
      · rw [State.peek_poke_ne _ _ (.inr hji)]
        exact h2 j (by omega)
    · intro sp k hk
      rw [State.peek_poke_ne _ _ (.inl hk)]
      exact h3 sp k hk
  · exact ⟨.refl hwf, fun j hj => by omega, fun _ _ _ => rfl⟩

end Sys2Proof.Machine
end

