-- ==== Sys2Proof/Laws/PerInstr.lean ====
section
/-! SUPPORT. Facts about every command as syntax, one lemma per constructor. -/

namespace Sys2Proof.Laws

theorem fields_fit (c u i : Nat) (hc : c < 256) (hu : u < 256) (hi : i < 65536) :
    c * 16777216 + u * 65536 + i < 4294967296 := by omega

theorem op_of_fields (c u i : Nat) (hu : u < 256) (hi : i < 65536) :
    (c * 16777216 + u * 65536 + i) / 16777216 = c := by omega

/-- A command word from fields that fit, as a number (spec/30_encoding.md R81). -/
theorem commandWord_toNat (o : Opcode) {u imm : Nat} (hu : u < 2 ^ 8) (hi : imm < 2 ^ 16) :
    (commandWord o u imm).toNat = o.code * 2 ^ 24 + u * 2 ^ 16 + imm := by
  have ho : o.code < 2 ^ 8 := by cases o <;> decide
  unfold commandWord
  rw [BitVec.toNat_ofNat]
  exact Nat.mod_eq_of_lt (fields_fit _ _ _ ho hu hi)

/-- Field `op` of a command word made from fields that fit is the code of its opcode (R81). -/
theorem opField_commandWord (o : Opcode) {u imm : Nat} (hu : u < 2 ^ 8) (hi : imm < 2 ^ 16) :
    opField (commandWord o u imm) = o.code := by
  unfold opField
  rw [commandWord_toNat o hu hi]
  exact op_of_fields _ _ _ hu hi

/-- The code of an opcode names it (R86). -/
theorem opcodeOf_code (o : Opcode) : opcodeOf o.code = some o := by cases o <;> decide

/-- The length of a command whose opcode is known (R88). -/
theorem commandLength_of {w : Word} {o : Opcode} (h : opcodeOf (opField w) = some o) :
    commandLength w = 1 + o.format.operands := by
  unfold commandLength
  rw [h]

theorem commandLength_commandWord (o : Opcode) {u imm : Nat} (hu : u < 2 ^ 8) (hi : imm < 2 ^ 16) :
    commandLength (commandWord o u imm) = 1 + o.format.operands := by
  exact commandLength_of ((congrArg opcodeOf (opField_commandWord o hu hi)).trans (opcodeOf_code o))

/-- The words of a well-formed command: its command word, made of its opcode and fields that fit, announces exactly as
many words as the encoding has (R82, R88). -/
def EncodeLength.Statement (i : Instr) : Prop :=
  i.wellFormed = true →
    ∃ w ops, encode i = w :: ops ∧ opcodeOf (opField w) = some i.opcode ∧ commandLength w = (encode i).length

theorem EncodeLength.of_fields {i : Instr} {u imm : Nat} {ops : List Word} (he : encode i = commandWord i.opcode u imm :: ops)
    (hl : i.opcode.format.operands = ops.length) (h : i.wellFormed = true → u < 2 ^ 8 ∧ imm < 2 ^ 16) :
    EncodeLength.Statement i := by
  intro hw
  obtain ⟨hu, hi⟩ := h hw
  refine ⟨_, _, he, ?_, ?_⟩
  · rw [opField_commandWord _ hu hi, opcodeOf_code]
  · rw [commandLength_commandWord _ hu hi, he, hl, List.length_cons, Nat.add_comm]

theorem EncodeLength.nop : EncodeLength.Statement .nop := EncodeLength.of_fields rfl rfl fun _ => by decide
theorem EncodeLength.init : EncodeLength.Statement .init := EncodeLength.of_fields rfl rfl fun _ => by decide
theorem EncodeLength.rdreg (reg : Nat) : EncodeLength.Statement (.rdreg reg) :=
  EncodeLength.of_fields rfl rfl fun h => ⟨by decide, of_decide_eq_true h⟩
theorem EncodeLength.wrreg (reg : Nat) (data : Word) : EncodeLength.Statement (.wrreg reg data) :=
  EncodeLength.of_fields rfl rfl fun h => ⟨by decide, of_decide_eq_true h⟩
theorem EncodeLength.rdmem (space : Nat) (index : Word) : EncodeLength.Statement (.rdmem space index) :=
  EncodeLength.of_fields rfl rfl fun h => ⟨of_decide_eq_true h, by decide⟩
theorem EncodeLength.wrmem (space : Nat) (index data : Word) : EncodeLength.Statement (.wrmem space index data) :=
  EncodeLength.of_fields rfl rfl fun h => ⟨of_decide_eq_true h, by decide⟩
theorem EncodeLength.envProc (inst : Nat) (x : F32) : EncodeLength.Statement (.envProc inst x) :=
  EncodeLength.of_fields rfl rfl fun h => ⟨of_decide_eq_true h, by decide⟩
theorem EncodeLength.lpfProc (x : F32) : EncodeLength.Statement (.lpfProc x) :=
  EncodeLength.of_fields rfl rfl fun _ => by decide
theorem EncodeLength.zdProc (x : F32) : EncodeLength.Statement (.zdProc x) :=
  EncodeLength.of_fields rfl rfl fun _ => by decide
theorem EncodeLength.cdProc (x : F32) : EncodeLength.Statement (.cdProc x) :=
  EncodeLength.of_fields rfl rfl fun _ => by decide
theorem EncodeLength.ctProc (x : F32) : EncodeLength.Statement (.ctProc x) :=
  EncodeLength.of_fields rfl rfl fun _ => by decide
theorem EncodeLength.anProc (len : Word) : EncodeLength.Statement (.anProc len) :=
  EncodeLength.of_fields rfl rfl fun _ => by decide
theorem EncodeLength.vSetRate (v : Nat) (period : Word) : EncodeLength.Statement (.vSetRate v period) :=
  EncodeLength.of_fields rfl rfl fun h => ⟨of_decide_eq_true h, by decide⟩
theorem EncodeLength.vSetWave (v : Nat) (len : Word) : EncodeLength.Statement (.vSetWave v len) :=
  EncodeLength.of_fields rfl rfl fun h => ⟨of_decide_eq_true h, by decide⟩
theorem EncodeLength.vNext (v : Nat) : EncodeLength.Statement (.vNext v) :=
  EncodeLength.of_fields rfl rfl fun h => ⟨of_decide_eq_true h, by decide⟩
theorem EncodeLength.engProc (x : F32) : EncodeLength.Statement (.engProc x) :=
  EncodeLength.of_fields rfl rfl fun _ => by decide
theorem EncodeLength.pipeSmp (x : F32) : EncodeLength.Statement (.pipeSmp x) :=
  EncodeLength.of_fields rfl rfl fun _ => by decide
theorem EncodeLength.pipeBlk : EncodeLength.Statement .pipeBlk := EncodeLength.of_fields rfl rfl fun _ => by decide
theorem EncodeLength.ctick (c0 c1 c2 c3 : F32) : EncodeLength.Statement (.ctick c0 c1 c2 c3) :=
  EncodeLength.of_fields rfl rfl fun _ => by decide
theorem EncodeLength.fpoll : EncodeLength.Statement .fpoll := EncodeLength.of_fields rfl rfl fun _ => by decide

end Sys2Proof.Laws
end

