-- ==== Sys2Proof/Laws/Pipeline.lean ====
section
/-! SUPPORT. What the per-sample step of the pipeline does before the engine runs, said once. -/

namespace Sys2Proof.Machine

/-- `HistoryWrite` on a history that has the cell written (spec/45_pipeline.md R221). -/
theorem historyWrite_apply {s : State} {x : F32} (hr : s.running = true) (hw : s.pipe.hwr.toNat < s.cfg.hist.toNat) :
    historyWrite x s = .ok () ((s.poke .hist s.pipe.hwr.toNat x).setPipe
      { hwr := incMod s.pipe.hwr s.cfg.hist
        fill := u32 (min (s.pipe.fill.toNat + 1) s.cfg.win.toNat)
        hopCnt := s.pipe.hopCnt + 1 }) := by
  have hlt : s.pipe.hwr.toNat < s.spaceSize .hist := by
    unfold State.spaceSize; rw [if_pos hr]; exact hw
  unfold historyWrite
  rw [M.bind_of_ok (M.get_apply s), M.bind_of_ok (storeCell_of_lt hlt)]
  rfl

/-- Nothing is published (R222). -/
theorem publishWindow_none {s : State} (h : s.ctl.anAuto = false ∨ s.pipe.fill ≠ s.cfg.win) :
    publishWindow s = .ok () s := by
  unfold publishWindow
  rw [M.bind_of_ok (M.get_apply s)]
  refine (M.ite_of_false ?_ _ _ _).trans rfl
  rcases h with h | h <;> simp [h]

/-- A window is published (R222): the cells of the slot, the flag and the count; nothing else changes. -/
theorem publishWindow_some {s : State} (hr : s.running = true) (hwf : s.mem.wf = true) (ha : s.ctl.anAuto = true)
    (hf : s.pipe.fill = s.cfg.win) (hh : 0 < s.cfg.hist.toNat) :
    ∃ u, MemOnly s u
      ∧ publishWindow s
          = .ok () (u.setWmb { full := true, drop := if s.wmb.full then satInc s.wmb.drop else s.wmb.drop })
      ∧ (∀ i, i < s.cfg.win.toNat → u.peek .wmb i
          = s.peek .hist (histIndex s.pipe.hwr.toNat s.cfg.hist.toNat s.cfg.win.toNat i))
      ∧ (∀ sp k, (sp ≠ .wmb ∨ s.cfg.win.toNat ≤ k) → u.peek sp k = s.peek sp k) := by
  have hsz : ∀ sp, s.spaceSize sp = s.cfg.spaceSize sp := fun sp => if_pos hr
  obtain ⟨u, hu, h1, h2, h3⟩ := copyLoop (s := s) (a := .hist) (b := .wmb) (n := s.cfg.win.toNat)
    (f := histIndex s.pipe.hwr.toNat s.cfg.hist.toNat s.cfg.win.toNat) (g := fun i => i) (by decide) hwf
    (fun i _ => by rw [hsz]; exact Nat.mod_lt _ hh) (fun i hi => by rw [hsz]; exact hi) (fun i j _ _ h => h)
  refine ⟨u, h1, ?_, h2, fun sp k hk => h3 sp k (hk.imp id fun h i hi => by omega)⟩
  unfold publishWindow
  rw [M.bind_of_ok (M.get_apply s)]
  refine (M.ite_of_true (by simp [ha, hf]) _ _ _).trans ?_
  rw [M.bind_of_ok hu, M.modify_apply, h1.1]
  rfl

end Sys2Proof.Machine
end

