-- ==== Sys2Proof/Tests/Slice0.lean ====
section
/-! SUPPORT. The model's own tests, all by evaluation on small states: what WellFormed refuses, words written out from
the spec's encoding, single commands with results taken from the spec's examples, and one witness for the hypotheses of
every statement. -/

set_option Elab.async false

open Sys2Proof Sys2Proof.Machine

namespace Sys2Proof.Tests

/-! ## WellFormed refuses what does not fit the command word (spec/30_encoding.md R81) -/

theorem test_wf_rdreg : (Instr.rdreg 0x10000).wellFormed = false := by decide
theorem test_wf_wrreg : (Instr.wrreg 0x10000 0).wellFormed = false := by decide
theorem test_wf_rdmem : (Instr.rdmem 256 0).wellFormed = false := by decide
theorem test_wf_wrmem : (Instr.wrmem 256 0 0).wellFormed = false := by decide
theorem test_wf_envProc : (Instr.envProc 256 0).wellFormed = false := by decide
theorem test_wf_vSetRate : (Instr.vSetRate 256 1).wellFormed = false := by decide
theorem test_wf_vSetWave : (Instr.vSetWave 256 1).wellFormed = false := by decide
theorem test_wf_vNext : (Instr.vNext 256).wellFormed = false := by decide
theorem test_wf_bounds : (Instr.rdreg 0xFFFF).wellFormed = true ∧ (Instr.vNext 255).wellFormed = true := by decide

/-! ## One word of every command, written out from R86 -/

theorem test_dec_nop : decode [0x00000000] = .command .nop [] := by decide
theorem test_dec_init : decode [0x01000000] = .command .init [] := by decide
theorem test_dec_rdreg : decode [0x020017FD] = .command (.rdreg 0x17FD) [] := by decide
theorem test_dec_wrreg : decode [0x03000015, 0x00000001] = .command (.wrreg 0x15 1) [] := by decide
theorem test_dec_rdmem : decode [0x040C0000, 0x00000007] = .command (.rdmem 12 7) [] := by decide
theorem test_dec_wrmem : decode [0x05020000, 0x00000003, 0x3F800000] = .command (.wrmem 2 3 0x3F800000) [] := by decide
theorem test_dec_envProc : decode [0x10010000, 0xBF800000] = .command (.envProc 1 0xBF800000) [] := by decide
theorem test_dec_lpfProc : decode [0x11000000, 0x3F800000] = .command (.lpfProc 0x3F800000) [] := by decide
theorem test_dec_zdProc : decode [0x12000000, 0x3F800000] = .command (.zdProc 0x3F800000) [] := by decide
theorem test_dec_cdProc : decode [0x20000000, 0x3F800000] = .command (.cdProc 0x3F800000) [] := by decide
theorem test_dec_ctProc : decode [0x21000000, 0x3F800000] = .command (.ctProc 0x3F800000) [] := by decide
theorem test_dec_anProc : decode [0x30000000, 0x00000004] = .command (.anProc 4) [] := by decide
theorem test_dec_vSetRate : decode [0x40030000, 0x00000008] = .command (.vSetRate 3 8) [] := by decide
theorem test_dec_vSetWave : decode [0x41030000, 0x00000004] = .command (.vSetWave 3 4) [] := by decide
theorem test_dec_vNext : decode [0x42FF0000] = .command (.vNext 255) [] := by decide
theorem test_dec_engProc : decode [0x43000000, 0x3F800000] = .command (.engProc 0x3F800000) [] := by decide
theorem test_dec_pipeSmp : decode [0x50000000, 0x3F800000] = .command (.pipeSmp 0x3F800000) [] := by decide
theorem test_dec_pipeBlk : decode [0x51000000, 0x00000000] = .command .pipeBlk [0x00000000] := by decide
theorem test_dec_ctick : decode [0x52000000, 1, 2, 3, 4, 5] = .command (.ctick 1 2 3 4) [5] := by decide
theorem test_dec_fpoll : decode [0x53000000] = .command .fpoll [] := by decide
/-- R87 (b) and the vectors V-SYS-1 of 95_test_vectors.md. -/
theorem test_dec_illegal :
    decode [0x00000001] = .illegal (.reservedField .nop) [] ∧ decode [0xFF123456] = .illegal (.unknownOpcode 0xFF) []
      ∧ decode [0x11010000, 0x3F800000, 0] = .illegal (.reservedField .lpfProc) [0] := by decide
theorem test_dec_incomplete : decode [0x05090000, 0x00000001] = .incomplete := by decide
/-- The opcode table's numbering: the second word of V.SETRATE is bits 63 to 32. -/
theorem test_table_word : decodeTableWord 64 0x0000000840030000 = some (.vSetRate 3 8) := by decide

/-! ## Small states -/

/-- A legal configuration: FS 1.0, blocks of 2, windows of 2, hops of 2, one voice, rings of 4, tables of 2: 29 words. -/
def smallCfg : Cfg :=
  { fs := 0x3F800000, block := 2, win := 2, hop := 2, nv := 1, ring := 4, hist := 4, wt := 2 }

/-- Configured, not yet initialised, with exactly enough memory. -/
def stopped : State := { State.reset with cfg := smallCfg, arenaCap := 29 }

/-- Initialised; the voice has neither a waveform nor a rate. -/
def fresh : State := stopped.initialised

/-- A voice with a period of 8, about to wrap, with a waveform of one sample queued. -/
def demoVoice : Voice :=
  { Voice.reset with phase := 0x3F600000, inc := 0x3E000000, period := 8, actLen := 2, swapLen := 1, pending := true,
                     waveSet := true, rateSet := true }

/-- Initialised, with that voice. -/
def demo : State := fresh.setVoice 0 demoVoice

/-- The voice stands at phase 1.0, past its buffer. -/
def lost : State := fresh.setVoice 0 { demoVoice with phase := 0x3F800000 }

/-- What an outcome must be to pass: a next state of which `p` holds. -/
def answers (o : Host.Outcome State Fault Refusal) (p : State → Bool) : Bool :=
  match o with
  | .next t => p t
  | .fault _ => false
  | .refused _ => false

/-- The only response so far, as the words on the response port (R84). -/
def State.sent (t : State) (ws : List Word) : Bool := t.resp.flatMap Response.words == ws

theorem next_of {o : Host.Outcome State Fault Refusal} {p : State → Bool} (h : answers o p = true) :
    ∃ t, o = .next t ∧ p t = true := by
  cases o with
  | next t => exact ⟨t, rfl, h⟩
  | fault _ => cases h
  | refused _ => cases h

/-- The state a piece of pseudocode leaves. -/
def finalOf {α : Type} (x : M α) (s : State) : State :=
  match x s with
  | .ok _ t => t
  | .error _ t => t

/-- It ended normally. -/
def endsWell {α : Type} (x : M α) (s : State) : Bool :=
  match x s with
  | .ok _ _ => true
  | .error _ _ => false

theorem ok_of {x : M Unit} {s : State} (h : endsWell x s = true) : x s = .ok () (finalOf x s) := by
  unfold endsWell at h
  unfold finalOf
  cases hx : x s with
  | ok _ _ => rfl
  | error _ _ => rw [hx] at h; cases h

/-! ## Single commands; expected values from the examples of the rules and from 95_test_vectors.md -/

/-- R100. -/
theorem test_nop : answers (exec .nop State.reset) (State.sent · [0x00000000]) = true := by decide +kernel
/-- R101: INIT right after reset. -/
theorem test_init_reset :
    answers (exec .init State.reset) (fun t => State.sent t [0x06000000] && t.fault == 2 && t.faultInfo == 1) = true := by
  decide +kernel
/-- R103: exactly `ARENA_CAP` words succeed; R104: the mix amplitude and the active length. -/
theorem test_init :
    answers (exec .init stopped)
      (fun t => State.sent t [0] && t.running && t.eng.amp == 0x3F800000 && (t.voice 0).actLen == 2) = true := by
  decide +kernel
/-- V-SYS-1, lines 6 and 7. -/
theorem test_rdreg :
    answers (exec (.rdreg 0x20) State.reset) (State.sent · [0x00010000, 0x00000000]) = true
      ∧ answers (exec (.rdreg 0x08) State.reset) (State.sent · [0x02000000]) = true := by decide +kernel
/-- R106. -/
theorem test_wrreg :
    answers (exec (.wrreg 0x10 0x3F000000) State.reset) (fun t => State.sent t [0] && t.lpf.decay == 0x3F000000) = true
      ∧ answers (exec (.wrreg 0x20 0) State.reset) (State.sent · [0x04000000]) = true := by decide +kernel
/-- R107: right after INIT. -/
theorem test_rdmem : answers (exec (.rdmem 0 0) fresh) (State.sent · [0x00010000, 0x00000000]) = true := by
  decide +kernel
/-- R108. -/
theorem test_wrmem :
    answers (exec (.wrmem 9 1 0x3F800000) fresh) (fun t => State.sent t [0] && t.mem.wstage == [(1, 0x3F800000)]) = true
      ∧ answers (exec (.wrmem 12 0 0) fresh) (State.sent · [0x04000000]) = true := by decide +kernel
/-- R120: rise 0.5, value 0.5, sample 1.0 gives 0.75; fall 0.25, value 0.75, sample 0.0 gives 0.5625. -/
theorem test_envProc :
    answers (exec (.envProc 0 0x3F800000) (fresh.setEnv0 { rise := 0x3F000000, fall := 0x3E800000, value := 0x3F000000 }))
        (State.sent · [0x00010000, 0x3F400000]) = true
      ∧ answers (exec (.envProc 0 0) (fresh.setEnv0 { rise := 0x3F000000, fall := 0x3E800000, value := 0x3F400000 }))
        (State.sent · [0x00010000, 0x3F100000]) = true := by decide +kernel
/-- R121: decay 0.5, value 0.8125, previous 1.0, sample 0.0 gives 0.65625. -/
theorem test_lpfProc :
    answers (exec (.lpfProc 0) (fresh.setLpf { decay := 0x3F000000, value := 0x3F500000, prev := 0x3F800000 }))
      (fun t => State.sent t [0x00010000, 0x3F280000] && t.lpf.prev == 0) = true := by decide +kernel
/-- R122 (a): the product of two tiny samples underflows and counts as a crossing; 0.25 after 0.5 does not. -/
theorem test_zdProc :
    answers (exec (.zdProc 0x0DA24260) (fresh.setZdPrev 0x0DA24260)) (State.sent · [0x00010000, 1]) = true
      ∧ answers (exec (.zdProc 0x3E800000) (fresh.setZdPrev 0x3F000000)) (State.sent · [0x00010000, 0]) = true := by
  decide +kernel
/-- V-CD-2, samples 1 and 3. -/
theorem test_cdProc :
    answers (exec (.cdProc 0x3F000000) (fresh.setCd { fresh.cd with count := 1 }))
        (fun t => State.sent t [0x00020000, 2, 1] && t.cd.gatesWord == 5 && t.cd.count == 0) = true
      ∧ answers (exec (.cdProc 0xBF000000) (fresh.setCd { high := .on, low := .off, cycle := .on, count := 1, length := 2 }))
        (fun t => State.sent t [0x00020000, 2, 0] && t.cd.gatesWord == 2 && t.cd.count == 2) = true := by
  decide +kernel
/-- V-CT-1, sample 1 (the rates do not matter there). -/
theorem test_ctProc :
    answers (exec (.ctProc 0x3F000000) (fresh.setCt { fresh.ct with wr := 1 }))
      (fun t => State.sent t [0x00040000, 0, 1, 1, 1] && t.ct.wr == 2 && t.ct.lastZc == 1
        && t.mem.ring == [(1, 0x3F000000)]) = true := by
  decide +kernel
/-- R168: a window of the wrong length; automatic mode. -/
theorem test_anProc :
    answers (exec (.anProc 4) fresh) (fun t => State.sent t [0x06000000] && t.fault == 3 && t.faultInfo == 4) = true
      ∧ answers (exec (.anProc 2) (fresh.setCtl { lpfEn := false, anAuto := true })) (State.sent · [0x03000000])
        = true := by
  decide +kernel
/-- R191. -/
theorem test_vSetRate :
    answers (exec (.vSetRate 0 8) fresh) (fun t => State.sent t [0] && (t.voice 0).inc == 0x3E000000) = true
      ∧ answers (exec (.vSetRate 0 0) fresh) (State.sent · [0x02000000]) = true := by decide +kernel
/-- R192: the buffer that is not active takes the samples. -/
theorem test_vSetWave :
    answers (exec (.vSetWave 0 2) ((fresh.poke .wstage 0 7).poke .wstage 1 9))
      (fun t => State.sent t [0] && t.mem.vbuf == [(2, 7), (3, 9)] && (t.voice 0).flagsWord == 6) = true := by
  decide +kernel
/-- R194: active buffer 0, 1, 0, -1, phase 0.375, period 8 gives 0.5 and phase 0.5. -/
theorem test_vNext :
    answers (exec (.vNext 0)
        ((((fresh.setCfg { smallCfg with wt := 4 }).poke .vbuf 1 0x3F800000).poke .vbuf 3 0xBF800000).setVoice 0
          { demoVoice with phase := 0x3EC00000, actLen := 4 }))
      (fun t => State.sent t [0x00010000, 0x3F000000] && (t.voice 0).phase == 0x3F000000) = true
      ∧ answers (exec (.vNext 0) lost) (fun t => State.sent t [0x06000000] && t.fault == 5) = true := by decide +kernel
/-- R197: an unready voice faults, and the tracker's update stands. -/
theorem test_engProc :
    answers (exec (.engProc 0x3F800000) fresh)
      (fun t => State.sent t [0x06000000] && t.fault == 4 && t.faultInfo == 0 && t.ct.wr == 1) = true := by decide +kernel
/-- R193 (commit) under PIPE.SMP: the wrap takes the queued length and leaves flags 0x0D. -/
theorem test_pipeSmp :
    answers (exec (.pipeSmp 0xBF800000) demo)
      (fun t => State.sent t [0x00010000, 0] && t.pipe.hwr == 1 && (t.voice 0).actLen == 1
        && (t.voice 0).flagsWord == 0x0D) = true := by
  decide +kernel
/-- R224: the hop boundary falls on the second sample of the block; R226: the controls are polled. -/
theorem test_pipeBlk :
    answers (exec .pipeBlk ((demo.setCtl { lpfEn := false, anAuto := true }).setCtrl
        { demo.ctrl with mb := { c0 := 1, c1 := 2, c2 := 3, c3 := 4 }, present := true }))
      (fun t => State.sent t [0] && t.pipe == { hwr := 2, hopCnt := 0, fill := 2 } && t.wmb.full
        && !t.ctrl.present && t.ctrl.cur.c3 == 4) = true := by
  decide +kernel
/-- R225. -/
theorem test_ctick :
    answers (exec (.ctick 0x00000000 0x3E800000 0x3F000000 0x3F800000) fresh)
      (fun t => State.sent t [0] && t.ctrl.present && t.ctrl.mb.c1 == 0x3E800000) = true := by decide +kernel
/-- R228: no estimate, then one that is taken. -/
theorem test_fpoll :
    answers (exec .fpoll fresh) (State.sent · [0x00020000, 0, 0]) = true
      ∧ answers (exec .fpoll (fresh.setFreq { value := 0x447A0000, present := true }))
        (fun t => State.sent t [0x00020000, 1, 0x447A0000] && !t.freq.present && t.freq.value == 0x447A0000) = true := by
  decide +kernel

/-! ## The small states have the invariant -/

theorem fresh_inv : Inv fresh where
  memWf := by decide +kernel
  faultCode := by decide
  faultInfo := fun _ => rfl
  stopped := fun h => by cases h
  running := fun _ =>
    { valid := by decide +kernel
      fits := by decide +kernel
      below := by intro sp; cases sp <;> decide +kernel
      tableWin := rfl
      tableTwr := rfl
      tableTwi := rfl
      ctWr := by decide +kernel
      ctLastZc := by decide +kernel
      ctCycStart := by decide +kernel
      ctCycEnd := by decide +kernel
      ctCycLen := by decide +kernel
      hwr := by decide +kernel
      hopCnt := by decide +kernel
      fill := by decide +kernel
      rr := by decide +kernel
      amp := by decide +kernel
      anK := by decide +kernel
      full := by decide +kernel
      present := by decide +kernel
      voices := by
        intro v hv
        have h1 : v < 1 := hv
        obtain rfl : v = 0 := by omega
        constructor <;> decide +kernel
      others := by
        intro v hv
        have h1 : 1 ≤ v := hv
        by_cases h2 : v < 256 <;>
          simp [State.voice, fresh, State.initialised, initialVoices, stopped, State.reset, smallCfg, h2,
            show v ≠ 0 by omega] }

/-- Setting up a voice keeps the invariant. -/
theorem inv_setVoice {s : State} {v : Nat} {x : Voice} (h : Inv s) (hr : s.running = true) (hv : v < s.cfg.nv.toNat)
    (hx : VoiceInv s.cfg x) : Inv (s.setVoice v x) where
  memWf := h.memWf
  faultCode := h.faultCode
  faultInfo := h.faultInfo
  stopped := fun hs => absurd (hr.symm.trans hs) (by simp)
  running := fun _ =>
    have i := h.running hr
    { valid := i.valid, fits := i.fits, below := i.below, tableWin := i.tableWin, tableTwr := i.tableTwr
      tableTwi := i.tableTwi, ctWr := i.ctWr, ctLastZc := i.ctLastZc, ctCycStart := i.ctCycStart
      ctCycEnd := i.ctCycEnd, ctCycLen := i.ctCycLen, hwr := i.hwr, hopCnt := i.hopCnt, fill := i.fill, rr := i.rr
      amp := i.amp, anK := i.anK, full := i.full, present := i.present
      voices := by
        intro u hu
        rw [State.voice_setVoice]
        split
        · exact hx
        · exact i.voices u hu
      others := by
        intro u hu
        have hu' : s.cfg.nv.toNat ≤ u := hu
        rw [State.voice_setVoice, if_neg (by omega)]
        exact i.others u hu }

theorem demo_inv : Inv demo := inv_setVoice fresh_inv rfl (by decide +kernel) (by constructor <;> decide +kernel)

theorem lost_inv : Inv lost := inv_setVoice fresh_inv rfl (by decide +kernel) (by constructor <;> decide +kernel)

/-- A state with other content of the analyzer, the window mailbox, the pipeline's counters, CTL, the port and the
schedule. -/
def retouch (s : State) (m : Memory) (a : An) (w : Wmb) (p : Pipe) (c : Ctl) (q : List Word) (d : List Turn) : State :=
  { s with mem := m, an := a, wmb := w, pipe := p, ctl := c, port := q, sched := d }

/-- Within their bounds all of these may be changed. -/
theorem inv_retouch {s : State} {m : Memory} {a : An} {w : Wmb} {p : Pipe} {c : Ctl} {q : List Word} {d : List Turn}
    (h : Inv s) (hr : s.running = true) (hm : m.wf = true)
    (hb : ∀ sp, cellsBelow (s.cfg.spaceSize sp) (m.cells sp) = true)
    (hw : (m.anWin, m.anTwr, m.anTwi) = (s.mem.anWin, s.mem.anTwr, s.mem.anTwi))
    (hk : a.k.toNat < s.cfg.win.toNat / 2) (hp : s.freq.present = true → a.primed = true)
    (hf : w.full = true → p.fill = s.cfg.win)
    (h1 : p.hwr.toNat < s.cfg.hist.toNat ∧ p.hopCnt.toNat < s.cfg.hop.toNat ∧ p.fill.toNat ≤ s.cfg.win.toNat) :
    Inv (retouch s m a w p c q d) := by
  have i := h.running hr
  simp only [Prod.mk.injEq] at hw
  exact
    { memWf := hm, faultCode := h.faultCode, faultInfo := h.faultInfo
      stopped := fun hs => absurd (hr.symm.trans hs) (by simp)
      running := fun _ =>
        { valid := i.valid, fits := i.fits, below := hb, tableWin := hw.1.trans i.tableWin
          tableTwr := hw.2.1.trans i.tableTwr, tableTwi := hw.2.2.trans i.tableTwi, ctWr := i.ctWr
          ctLastZc := i.ctLastZc, ctCycStart := i.ctCycStart, ctCycEnd := i.ctCycEnd, ctCycLen := i.ctCycLen
          hwr := h1.1, hopCnt := h1.2.1, fill := h1.2.2, rr := i.rr, amp := i.amp, anK := hk, full := hf
          present := hp, voices := i.voices, others := i.others } }

/-- `demo` with `w` as the previous phase of bin 0, a busy analyzer or not, and the analyzer's turn next. -/
def analysing (w : Word) (busy : Bool) : State :=
  retouch demo (demo.poke .anPhase 0 w).mem { demo.an with busy := busy } demo.wmb demo.pipe demo.ctl [] [.analyzer]

theorem analysing_inv (w : Word) (busy : Bool) (hw : w = 0xFF800000 ∨ w = 0x7FC00000) : Inv (analysing w busy) := by
  refine inv_retouch demo_inv rfl (State.poke_wf _ _ _ demo_inv.memWf) ?_ rfl (by decide +kernel +revert)
    (by decide +kernel +revert) (by decide +kernel) (by decide +kernel)
  rcases hw with rfl | rfl <;> intro sp <;> cases sp <;> decide +kernel

/-- `demo` at the last sample of a hop, in automatic mode or not. -/
def boundary (auto : Bool) : State :=
  retouch demo demo.mem demo.an demo.wmb { hwr := 3, hopCnt := 1, fill := 1 } { lpfEn := false, anAuto := auto } [] []

theorem boundary_inv (auto : Bool) : Inv (boundary auto) :=
  inv_retouch demo_inv rfl demo_inv.memWf (demo_inv.running rfl).below rfl (by decide +kernel) (by decide +kernel)
    (by decide +kernel) (by decide +kernel)

/-- `demo` with words on the port. -/
def sending (ws : List Word) : State := retouch demo demo.mem demo.an demo.wmb demo.pipe demo.ctl ws []

theorem sending_inv (ws : List Word) : Inv (sending ws) :=
  inv_retouch demo_inv rfl demo_inv.memWf (demo_inv.running rfl).below rfl (by decide +kernel) (by decide +kernel)
    (by decide +kernel) (by decide +kernel)

theorem noReset {s : State} (h : s.sched = []) : ¬ s.resetNext := by
  rintro (h' | h') <;> rw [h] at h' <;> cases h'

/-! ## Witnesses: for each statement, a state and operands that meet its hypotheses -/

theorem witness_DecodeEncodeRoundTrip : (Instr.vSetWave 255 0xFFFFFFFF).wellFormed = true := by decide

theorem witness_EncodeDecodeRoundTrip : decode [0x0200FFFF, 7] = .command (.rdreg 0xFFFF) [7] := by decide

theorem witness_MatchAndMaskSelectCommand :
    (⟨.wrmem, 0x05000000, 0xFF00FFFF, 2⟩ : EncodingRow) ∈ encodingTable
      ∧ (0x05FF0000 : Word) &&& 0xFF00FFFF = 0x05000000 ∧ 2 ≤ [(0 : Word), 0].length := by decide

theorem witness_IllegalWordsAnswered :
    ((sending [0x54000000, 9]).commandNext ∧ (sending [0x54000000, 9]).port = [0x54000000, 9]
        ∧ ∀ e ∈ encodingTable, (0x54000000 : Word) &&& 0xFF000000 ≠ e.pattern)
      ∧ ((sending [0x11010000, 9]).commandNext ∧ (sending [0x11010000, 9]).port = [0x11010000, 9]
        ∧ (⟨.lpfProc, 0x11000000, 0xFFFFFFFF, 1⟩ : EncodingRow) ∈ encodingTable
        ∧ (0x11010000 : Word) &&& 0xFF000000 = 0x11000000 ∧ (0x11010000 : Word) &&& 0xFFFFFFFF ≠ 0x11000000
        ∧ 1 ≤ [(9 : Word)].length) :=
  ⟨⟨.inl rfl, rfl, by decide⟩, ⟨.inl rfl, rfl, by decide, by decide, by decide, by decide⟩⟩

theorem witness_StepRunsDecodedCommand :
    (sending [0]).commandNext ∧ decode (sending [0]).port = .command .nop [] := ⟨.inl rfl, by decide⟩

theorem witness_OneResponsePerCommand :
    (∃ t, exec .fpoll demo = .next t) ∧ (⟨.ok, [1, 2, 3, 4]⟩ : Response).results.length ≤ 4 :=
  ⟨(next_of (p := fun _ => true) (by decide +kernel)).imp fun _ h => h.1, by decide⟩

theorem witness_RefusalChangesNothing :
    ∃ t, exec (.rdreg 8) demo = .next t ∧ demo.answered t .errOperand [] ∧ Status.errOperand ≠ .ok
      ∧ Status.errOperand ≠ .fault := by
  obtain ⟨t, h, hp⟩ := next_of (o := exec (.rdreg 8) demo) (p := fun t => t.resp == [⟨.errOperand, []⟩])
    (by decide +kernel)
  exact ⟨t, h, eq_of_beq hp, by decide, by decide⟩

theorem witness_FaultedBlockDoesNoWork :
    (demo.setFault 4 0).fault ≠ 0 ∧ (Instr.init ≠ .nop ∧ (∀ a, Instr.init ≠ .rdreg a) ∧ ∀ sp k, Instr.init ≠ .rdmem sp k)
      ∧ ¬ (demo.setFault 4 0).resetNext ∧ ∃ t, step (demo.setFault 4 0) = .next t :=
  ⟨by decide, ⟨by decide, by simp, by simp⟩, noReset rfl,
    (next_of (p := fun _ => true) (by decide +kernel)).imp fun _ h => h.1⟩

theorem witness_RunningStateChecked :
    (demo.fault = 0 ∧ demo.running = true) ∧ (stopped.fault = 0 ∧ stopped.running = false ∧ Instr.fpoll ≠ .nop
      ∧ Instr.fpoll ≠ .init ∧ (∀ a, Instr.fpoll ≠ .rdreg a) ∧ ∀ a w, Instr.fpoll ≠ .wrreg a w) :=
  ⟨⟨rfl, rfl⟩, rfl, rfl, by decide, by decide, by simp, by simp⟩

theorem witness_FaultsByCommand : demo.fault = 0 ∧ ∃ t, exec (.anProc 3) demo = .next t ∧ t.fault ≠ 0 := by
  obtain ⟨t, h, hp⟩ := next_of (o := exec (.anProc 3) demo) (p := fun t => t.fault == 3) (by decide +kernel)
  exact ⟨rfl, t, h, by rw [eq_of_beq hp]; decide⟩

theorem witness_ResetFromAnyState :
    (demo.setSched [.reset]).resetNext ∧ (demo.setSched [.reset]).sched.head? = some .reset
      ∧ ((sending [0x52000000, 1]).setSched [.resetInCommand]).resetNext
      ∧ ((sending [0x52000000, 1]).setSched [.resetInCommand]).sched.head? = some .resetInCommand :=
  ⟨.inl rfl, rfl, .inr rfl, rfl⟩

theorem witness_OnlyResetUndoesInit :
    (sending [0x01000000]).running = true ∧ ¬ (sending [0x01000000]).resetNext
      ∧ ∃ t, step (sending [0x01000000]) = .next t :=
  ⟨rfl, noReset rfl, (next_of (p := fun _ => true) (by decide +kernel)).imp fun _ h => h.1⟩

theorem witness_NopAndReadRegister : regOf 0x17FD = some (.voice 255 .flags) ∧ regOf 0x17FE = none := by decide

theorem witness_MappedAddresses : regOf 0x1800 = none ∧ regOf 0x0008 = none ∧ demo.fault = 0 := by decide

/-- One triple for each clause: CTL at the greatest legal word, a configuration register before INIT, CTL at the least
illegal word, a read-only register, a locked one. -/
theorem witness_WriteRegister :
    (demo.fault = 0 ∧ regOf 0x15 = some .ctl ∧ Reg.ctl.access ≠ .ro
        ∧ ¬ (Reg.ctl.access = .rwLock ∧ demo.running = true) ∧ (Reg.ctl = .ctl → (3 : Word).toNat < 4))
      ∧ (stopped.fault = 0 ∧ regOf 0x07 = some .cfgWt ∧ Reg.cfgWt.access ≠ .ro
        ∧ ¬ (Reg.cfgWt.access = .rwLock ∧ stopped.running = true) ∧ (Reg.cfgWt = .ctl → (0 : Word).toNat < 4))
      ∧ 4 ≤ (4 : Word).toNat
      ∧ (regOf 0x20 = some .status ∧ Reg.status.access = .ro)
      ∧ (regOf 0x00 = some .cfgFs ∧ Reg.cfgFs.access = .rwLock ∧ demo.running = true) := by decide

theorem witness_ReadMemory :
    demo.running = true ∧ (spaceOf 12 = some .vbuf ∧ (3 : Word).toNat < demo.cfg.spaceSize .vbuf)
      ∧ demo.cfg.spaceSize .vbuf ≤ (4 : Word).toNat ∧ 12 < 13 := by decide

theorem witness_WriteMemory :
    demo.ready ∧ (spaceOf 9 = some .wstage ∧ (1 : Word).toNat < demo.cfg.spaceSize .wstage)
      ∧ (spaceOf 2 = some .wmb ∧ (1 : Word).toNat < demo.cfg.spaceSize .wmb ∧ demo.ctl.anAuto = false)
      ∧ demo.mem.wf = true
      ∧ ((boundary true).ready ∧ ¬ (Space.wmb = .wstage ∨ Space.wmb = .inBuf
          ∨ (Space.wmb = .wmb ∧ (boundary true).ctl.anAuto = false)))
      ∧ (spaceOf 12 = some .vbuf ∧ ¬ (Space.vbuf = .wstage ∨ Space.vbuf = .inBuf
          ∨ (Space.vbuf = .wmb ∧ demo.ctl.anAuto = false)))
      ∧ demo.cfg.spaceSize .wstage ≤ (2 : Word).toNat ∧ 12 < 13 :=
  ⟨⟨rfl, rfl⟩, by decide, by decide, demo_inv.memWf, ⟨⟨rfl, rfl⟩, by decide⟩, by decide, by decide, by decide⟩

theorem smallCfg_legal : ∀ n, smallCfg.check n := by
  intro n
  match n with
  | 0 => trivial
  | 1 => exact ⟨by decide +kernel, by decide⟩
  | 2 => exact ⟨by decide, by decide⟩
  | 3 => exact ⟨⟨1, by decide⟩, by decide, by decide⟩
  | 4 => exact ⟨by decide, by decide⟩
  | 5 => exact ⟨by decide, by decide⟩
  | 6 => exact ⟨by decide, by decide⟩
  | 7 => exact ⟨by decide, by decide⟩
  | 8 => exact ⟨by decide, by decide⟩
  | 9 => show _ + _ ≤ _; decide
  | _ + 10 => trivial

/-- The capacity is exactly what the configuration needs. -/
theorem witness_InitCompletes :
    stopped.fault = 0 ∧ stopped.running = false ∧ (∀ n, stopped.cfg.check n)
      ∧ stopped.cfg.ring.toNat + stopped.cfg.hist.toNat + 5 * stopped.cfg.win.toNat + stopped.cfg.win.toNat / 2
          + stopped.cfg.wt.toNat * (2 * stopped.cfg.nv.toNat + 1) + 2 * stopped.cfg.block.toNat = stopped.arenaCap :=
  ⟨rfl, rfl, smallCfg_legal, by decide⟩

/-- The first check fails after reset, the last one with a history buffer of 3; one word of memory too few. -/
theorem witness_InitFaults :
    (State.reset.fault = 0 ∧ State.reset.running = false ∧ ¬ State.reset.cfg.check 1
        ∧ ∀ m, m < 1 → State.reset.cfg.check m)
      ∧ (¬ ({ smallCfg with hist := 3 } : Cfg).check 9 ∧ ∀ m, m < 9 → ({ smallCfg with hist := 3 } : Cfg).check m)
      ∧ (∀ n, stopped.cfg.check n) ∧ 28 < stopped.cfg.ring.toNat + stopped.cfg.hist.toNat + 5 * stopped.cfg.win.toNat
          + stopped.cfg.win.toNat / 2 + stopped.cfg.wt.toNat * (2 * stopped.cfg.nv.toNat + 1)
          + 2 * stopped.cfg.block.toNat := by
  refine ⟨⟨rfl, rfl, fun h => absurd h.1 (by decide +kernel), fun m hm => ?_⟩, ⟨fun h => ?_, fun m hm => ?_⟩,
    smallCfg_legal, by decide⟩
  · obtain rfl : m = 0 := by omega
    trivial
  · have h' : (2 : Nat) + 2 ≤ 3 := h
    omega
  · match m with
    | 0 => trivial
    | 1 => exact smallCfg_legal 1
    | 2 => exact smallCfg_legal 2
    | 3 => exact smallCfg_legal 3
    | 4 => exact smallCfg_legal 4
    | 5 => exact smallCfg_legal 5
    | 6 => exact smallCfg_legal 6
    | 7 => exact ⟨by decide, by decide⟩
    | 8 => exact smallCfg_legal 8
    | m + 9 => omega

theorem demo_ready : demo.ready := ⟨rfl, rfl⟩

theorem witness_EnvelopeFollows : demo.ready ∧ 0 ≤ 1 ∧ 1 ≤ 1 ∧ 1 < 2 := ⟨demo_ready, by decide, by decide, by decide⟩

theorem witness_LowPassFilters : demo.ready := demo_ready

theorem witness_ZeroCrossingDetected :
    (demo.setZdPrev 0x00000001).ready ∧ isNaN 0x00000001 = false ∧ isZero 0x00000001 = false
      ∧ (demo.setZdPrev 0x00000001).zdPrev = 0x00000001 := ⟨⟨rfl, rfl⟩, by decide +kernel, by decide +kernel, rfl⟩

/-- `demo` with both envelopes a NaN. -/
def deaf : State :=
  (demo.setEnv0 { rise := 0, fall := 0, value := 0x7F800001 }).setEnv1 { rise := 0, fall := 0, value := 0xFFC00000 }

theorem witness_NanIsSticky :
    isNaN 0x7F800001 = true ∧ deaf.ready ∧ isNaN deaf.env0.value = true ∧ isNaN deaf.env1.value = true
      ∧ ∃ t, exec (.cdProc 0x3F800000) deaf = .next t :=
  ⟨by decide +kernel, ⟨rfl, rfl⟩, by decide +kernel, by decide +kernel,
    (next_of (p := fun _ => true) (by decide +kernel)).imp fun _ h => h.1⟩

/-- The conditions of the table's rows can all be met, equality and a NaN included. -/
theorem witness_GateTransitions :
    fgt fOne pzero = true ∧ fgt pzero pzero = false ∧ flt pzero fOne = true ∧ flt pzero pzero = false
      ∧ feq pzero nzero = true ∧ isNaN qNaN = true ∧ demo.cd.high = .off ∧ demo.cd.low = .off ∧ demo.cd.cycle = .off
      ∧ ({ high := .on, low := .on, cycle := .on, count := 0xFFFFFFFF, length := 0 } : Cd).cycle = .on := by
  decide +kernel

theorem witness_CycleDetected : demo.ready := demo_ready

theorem witness_CycleTracked :
    (demo.setCt { demo.ct with wr := 3 }).ready
      ∧ (demo.setCt { demo.ct with wr := 3 }).ct.wr.toNat < (demo.setCt { demo.ct with wr := 3 }).cfg.ring.toNat :=
  ⟨⟨rfl, rfl⟩, by decide⟩

theorem witness_CycleLengthOnRing : (0 : Word).toNat < (4 : Word).toNat ∧ (3 : Word).toNat < (4 : Word).toNat := by
  decide

theorem witness_UnitCommandsFrame :
    (∃ t, exec (.envProc 1 0x3F800000) demo = .next t) ∧ (∃ t, exec (.lpfProc 0x3F800000) demo = .next t)
      ∧ (∃ t, exec (.zdProc 0x3F800000) demo = .next t) ∧ (∃ t, exec (.cdProc 0x3F800000) demo = .next t)
      ∧ ∃ t, exec (.ctProc 0x3F800000) demo = .next t := by
  refine ⟨?_, ?_, ?_, ?_, ?_⟩ <;> exact (next_of (p := fun _ => true) (by decide +kernel)).imp fun _ h => h.1

theorem witness_ParametersConstrained :
    (2 ≤ 2 ∧ 2 % 2 = 0) ∧ (4 ≤ 4 ∧ 4 % 4 = 0) ∧ isNaN pzero = false := by decide +kernel

theorem witness_AnalyzerTurnedAway :
    ((boundary true).ready ∧ (boundary true).ctl.anAuto = true)
      ∧ ((analysing 0xFF800000 true).ready ∧ (analysing 0xFF800000 true).an.busy = true)
      ∧ (demo.ready ∧ demo.ctl.anAuto = false ∧ demo.an.busy = false ∧ (3 : Word) ≠ demo.cfg.win) :=
  ⟨⟨⟨rfl, rfl⟩, rfl⟩, ⟨⟨rfl, rfl⟩, rfl⟩, demo_ready, rfl, rfl, by decide⟩

theorem witness_WindowApplied : Inv demo ∧ demo.running = true := ⟨demo_inv, rfl⟩

theorem witness_TransformIsRadix2 : demo.running = true ∧ demo.mem.wf = true ∧ demo.cfg.win.toNat = 2 ^ 1 :=
  ⟨rfl, demo_inv.memWf, by decide⟩

theorem witness_SpectrumHasOnePeak : Inv demo ∧ demo.running = true := ⟨demo_inv, rfl⟩

/-- The first candidate exceeds the estimate; the second does and the first does not; none ever does. -/
theorem witness_RefinementPicksNearer :
    (0 < smallCfg.hop.toNat + 8 ∧ fgt (candidate smallCfg fOne 0) pzero = true)
      ∧ (1 < smallCfg.hop.toNat + 8 ∧ fgt (candidate smallCfg pzero 1) pzero = true
        ∧ ∀ i, i < 1 → fgt (candidate smallCfg pzero i) pzero = false)
      ∧ ∀ j, j < smallCfg.hop.toNat + 8 → fgt (candidate smallCfg qNaN j) pzero = false := by decide +kernel

/-- A finite number less minus infinity is infinity. -/
theorem fsub_minusInf {a : F32} (ha : isFinite a = true) : fsub a 0xFF800000 = plusInf := by
  have h : (fExp a == 255) = false := by simpa [isFinite] using ha
  have hn : isNaN plusInf = false := by decide +kernel
  have hi : isInf plusInf = true := by decide +kernel
  have he : fneg 0xFF800000 = plusInf := by decide +kernel
  unfold fsub
  rw [he]
  unfold fadd
  rw [hn, hi]
  simp only [isNaN, isInf, h, Bool.false_and, Bool.or_self, Bool.false_eq_true, if_false, if_true]

/-- Anything less a NaN is the NaN. -/
theorem fsub_nan (a : F32) : fsub a 0x7FC00000 = qNaN := by
  have hn : isNaN (fneg 0x7FC00000) = true := by decide +kernel
  unfold fsub fadd
  rw [hn, Bool.or_true, if_pos rfl]

theorem fExp_fabs (a : F32) : fExp (fabs a) = fExp a ∧ fSign (fabs a) = false := by
  have h : (fabs a).toNat = a.toNat % 2 ^ 31 := by
    unfold fabs
    rw [BitVec.toNat_and, show (0x7FFFFFFF : F32).toNat = 2 ^ 31 - 1 from rfl, Nat.and_two_pow_sub_one_eq_mod]
  unfold fExp fSign
  rw [h]
  constructor
  · omega
  · exact decide_eq_false (by omega)

/-- A number no greater than pi in absolute value is finite. -/
theorem finite_of_fle {a : F32} (h : fle (fabs a) fPi = true) : isFinite a = true := by
  by_contra hc
  have he : fExp a = 255 := by simpa [isFinite] using hc
  obtain ⟨h1, h2⟩ := fExp_fabs a
  simp only [fle, ordered, Bool.and_eq_true, decide_eq_true_eq] at h
  have hu : (2 ^ 277 : Int) ≤ fUnits (fabs a) := by
    unfold fUnits fMag
    rw [h2, h1, he]
    simp only [Bool.false_eq_true, if_false, show ¬ (255 = 0) by decide]
    have : (2 : Nat) ^ 277 ≤ (2 ^ 23 + fFrac (fabs a)) * 2 ^ (255 - 1) := by
      calc 2 ^ 277 = 2 ^ 23 * 2 ^ (255 - 1) := by decide +kernel
        _ ≤ _ := Nat.mul_le_mul_right _ (by omega)
    exact_mod_cast this
  have hp : fUnits fPi < 2 ^ 277 := by decide +kernel
  omega

theorem atan2_finite {y x : F32} (hy : isNaN y = false) (hx : isNaN x = false) : isFinite (atan2 y x) = true := by
  unfold atan2
  simp only [hy, hx, Bool.or_self, Bool.false_eq_true, if_false]
  split
  · rename_i h; exact finite_of_fle h
  · decide +kernel

/-- The spectrum of `demo`'s window. -/
def spectrumOf (w : Word) (busy : Bool) : State :=
  finalOf (if busy then anTransform else anSpectrum) (analysing w busy)

theorem spectrum_done : anSpectrum (analysing 0xFF800000 false) = .ok () (spectrumOf 0xFF800000 false)
    ∧ anSpectrum (analysing 0x7FC00000 false) = .ok () (spectrumOf 0x7FC00000 false)
    ∧ anTransform (analysing 0xFF800000 true) = .ok () (spectrumOf 0xFF800000 true)
    ∧ anTransform (analysing 0x7FC00000 true) = .ok () (spectrumOf 0x7FC00000 true) :=
  ⟨ok_of (by decide +kernel), ok_of (by decide +kernel), ok_of (by decide +kernel), ok_of (by decide +kernel)⟩

theorem spectrum_peak (busy : Bool) :
    (spectrumOf 0xFF800000 busy).peakBin 0 ∧ (spectrumOf 0x7FC00000 busy).peakBin 0 := by
  unfold State.peakBin
  cases busy <;> decide +kernel

/-- Whatever the arctangent of the model is: a phase history of minus infinity makes the first candidate infinite. -/
theorem estimate_found (busy : Bool) :
    (analysing 0xFF800000 busy).estimate (spectrumOf 0xFF800000 busy) 0 = some plusInf := by
  have hf : isFinite ((spectrumOf 0xFF800000 busy).binPhase 0) = true :=
    atan2_finite (by cases busy <;> decide +kernel) (by cases busy <;> decide +kernel)
  have hp : (analysing 0xFF800000 busy).peek .anPhase 0 = 0xFF800000 := by cases busy <;> decide +kernel
  unfold State.estimate refined
  rw [hp]
  simp only [fsub_minusInf hf]
  clear hf hp
  cases busy <;> decide +kernel

/-- And one of a NaN keeps the refinement from ever converging. -/
theorem estimate_lost (busy : Bool) :
    (analysing 0x7FC00000 busy).estimate (spectrumOf 0x7FC00000 busy) 0 = none := by
  have hp : (analysing 0x7FC00000 busy).peek .anPhase 0 = 0x7FC00000 := by cases busy <;> decide +kernel
  unfold State.estimate refined
  rw [hp]
  simp only [fsub_nan]
  clear hp
  cases busy <;> decide +kernel

theorem witness_AnalysisCompletes :
    Inv (analysing 0xFF800000 false) ∧ (analysing 0xFF800000 false).ready
      ∧ (analysing 0xFF800000 false).ctl.anAuto = false ∧ (analysing 0xFF800000 false).an.busy = false
      ∧ anSpectrum (analysing 0xFF800000 false) = .ok () (spectrumOf 0xFF800000 false)
      ∧ (spectrumOf 0xFF800000 false).peakBin 0
      ∧ (analysing 0xFF800000 false).estimate (spectrumOf 0xFF800000 false) 0 = some plusInf :=
  ⟨analysing_inv _ _ (.inl rfl), ⟨rfl, rfl⟩, rfl, rfl, spectrum_done.1, (spectrum_peak _).1, estimate_found _⟩

theorem witness_AnalysisDoesNotConverge :
    Inv (analysing 0x7FC00000 false) ∧ (analysing 0x7FC00000 false).ready
      ∧ (analysing 0x7FC00000 false).ctl.anAuto = false ∧ (analysing 0x7FC00000 false).an.busy = false
      ∧ anSpectrum (analysing 0x7FC00000 false) = .ok () (spectrumOf 0x7FC00000 false)
      ∧ (spectrumOf 0x7FC00000 false).peakBin 0
      ∧ (analysing 0x7FC00000 false).estimate (spectrumOf 0x7FC00000 false) 0 = none :=
  ⟨analysing_inv _ _ (.inr rfl), ⟨rfl, rfl⟩, rfl, rfl, spectrum_done.2.1, (spectrum_peak _).2, estimate_lost _⟩

theorem witness_RateSet :
    demo.ready ∧ demo.hasVoice 0 = true ∧ 1 ≤ (1 : Word).toNat ∧ demo.cfg.nv.toNat ≤ 1 ∧ (0 : Word) = 0 :=
  ⟨demo_ready, by decide, by decide, by decide, rfl⟩

theorem witness_WaveQueued :
    demo.ready ∧ demo.mem.wf = true ∧ (demo.hasVoice 0 = true ∧ 1 ≤ (2 : Word).toNat ∧ (2 : Word).toNat ≤ demo.cfg.wt.toNat)
      ∧ demo.cfg.nv.toNat ≤ 1 ∧ demo.cfg.wt.toNat < (3 : Word).toNat :=
  ⟨demo_ready, demo_inv.memWf, by decide, by decide, by decide⟩

theorem demo_plays : demo.voicePlays 0 := by
  unfold State.voicePlays
  decide +kernel

theorem witness_VoicePlaysAndAdvances : demo.ready ∧ demo.voicePlays 0 := ⟨demo_ready, demo_plays⟩

theorem witness_VoiceFaults :
    (fresh.ready ∧ fresh.hasVoice 0 = true ∧ (fresh.voice 0).waveSet = false)
      ∧ (lost.ready ∧ lost.hasVoice 0 = true ∧ (lost.voice 0).waveSet = true ∧ (lost.voice 0).rateSet = true
        ∧ floorU (fmul (lost.voice 0).phase (u2f (lost.voice 0).actLen)) (lost.voice 0).actLen = none)
      ∧ fresh.cfg.nv.toNat ≤ 1 :=
  ⟨⟨⟨rfl, rfl⟩, by decide +kernel⟩, ⟨⟨rfl, rfl⟩, by decide +kernel⟩, by decide⟩

theorem witness_PhaseStaysInUnit : inUnit 0x3F7FFFFF = true ∧ inUnit pzero = true := by decide +kernel

theorem witness_PositionInBuffer :
    inUnit 0x3F7FFFFF = true ∧ 1 ≤ (1 : Word).toNat ∧ (0x01000000 : Word).toNat ≤ 2 ^ 24 := by decide +kernel

/-- A step without a commit, and one with. -/
theorem witness_WaveformChangesOnlyAtCommit :
    (Inv (sending [0]) ∧ (sending [0]).running = true ∧ 0 < (sending [0]).cfg.nv.toNat ∧ ¬ (sending [0]).resetNext
        ∧ ∃ t, step (sending [0]) = .next t ∧ (t.voice 0).act = false)
      ∧ (Inv (sending [0x42000000]) ∧ (sending [0x42000000]).running = true
        ∧ 0 < (sending [0x42000000]).cfg.nv.toNat ∧ ¬ (sending [0x42000000]).resetNext
        ∧ ∃ t, step (sending [0x42000000]) = .next t ∧ (t.voice 0).act = true) := by
  refine ⟨⟨sending_inv _, rfl, by decide, noReset rfl, ?_⟩, sending_inv _, rfl, by decide, noReset rfl, ?_⟩
  · obtain ⟨t, h, hp⟩ := next_of (o := step (sending [0])) (p := fun t => (t.voice 0).act == false) (by decide +kernel)
    exact ⟨t, h, eq_of_beq hp⟩
  · obtain ⟨t, h, hp⟩ := next_of (o := step (sending [0x42000000])) (p := fun t => (t.voice 0).act == true)
      (by decide +kernel)
    exact ⟨t, h, eq_of_beq hp⟩

theorem demo_tracked_plays : ∀ v, v < demo.cfg.nv.toNat → (demo.tracked 0xBF800000).voicePlays v := by
  intro v hv
  obtain rfl : v = 0 := by have h : v < 1 := hv
                           omega
  unfold State.voicePlays
  decide +kernel

theorem witness_EngineMixes :
    Inv demo ∧ demo.ready ∧ ∀ v, v < demo.cfg.nv.toNat → (demo.tracked 0xBF800000).voicePlays v :=
  ⟨demo_inv, demo_ready, demo_tracked_plays⟩

theorem witness_EngineFaults :
    (Inv fresh ∧ fresh.ready ∧ 0 < fresh.cfg.nv.toNat ∧ (∀ v, v < 0 → (fresh.tracked pzero).voicePlays v)
        ∧ ((fresh.tracked pzero).voice 0).waveSet = false)
      ∧ (Inv lost ∧ lost.ready ∧ 0 < lost.cfg.nv.toNat ∧ (∀ v, v < 0 → (lost.tracked pzero).voicePlays v)
        ∧ ((lost.tracked pzero).voice 0).waveSet = true ∧ ((lost.tracked pzero).voice 0).rateSet = true
        ∧ floorU ((lost.tracked pzero).voice 0).position ((lost.tracked pzero).voice 0).actLen = none) :=
  ⟨⟨fresh_inv, ⟨rfl, rfl⟩, by decide, fun _ h => absurd h (by omega), by decide +kernel⟩,
    lost_inv, ⟨rfl, rfl⟩, by decide, fun _ h => absurd h (by omega), by decide +kernel⟩

/-- No boundary; a boundary without publication; a boundary with. -/
theorem witness_PipeSampleRecords :
    (Inv demo ∧ demo.ready ∧ demo.pipe.hopCnt.toNat + 1 ≠ demo.cfg.hop.toNat)
      ∧ (Inv (boundary false) ∧ (boundary false).ready
        ∧ (boundary false).pipe.hopCnt.toNat + 1 = (boundary false).cfg.hop.toNat ∧ (boundary false).ctl.anAuto = false)
      ∧ (Inv (boundary true) ∧ (boundary true).ready
        ∧ (boundary true).pipe.hopCnt.toNat + 1 = (boundary true).cfg.hop.toNat ∧ (boundary true).ctl.anAuto = true
        ∧ min ((boundary true).pipe.fill.toNat + 1) (boundary true).cfg.win.toNat = (boundary true).cfg.win.toNat) :=
  ⟨⟨demo_inv, demo_ready, by decide⟩, ⟨boundary_inv _, ⟨rfl, rfl⟩, by decide, rfl⟩, boundary_inv _, ⟨rfl, rfl⟩, by decide,
    rfl, by decide⟩

theorem only_voice {p : Nat → Prop} (h : p 0) : ∀ v, v < demo.cfg.nv.toNat → p v := by
  intro v hv
  obtain rfl : v = 0 := by have h : v < 1 := hv
                           omega
  exact h

theorem witness_PipeSampleCompletes :
    Inv demo ∧ demo.ready ∧ ∀ v, v < demo.cfg.nv.toNat → (demo.sampleReady 0xBF800000).voicePlays v :=
  ⟨demo_inv, demo_ready, only_voice (by unfold State.voicePlays; decide +kernel)⟩

/-- The state in which the voices of `s` play at sample `n` of a block. -/
def atSample (s : State) (n : Nat) : State :=
  let u := (s.setCtrl s.ctrl).afterSamples n
  u.sampleReady (u.peek .inBuf n)

/-- Both samples of `demo` play; the first sample of `fresh` and of `lost` does not. -/
theorem witness_BlockProcessed :
    (Inv demo ∧ demo.ready ∧ demo.ctrl.present = false
        ∧ ∀ n, n < demo.cfg.block.toNat → ∀ v, v < demo.cfg.nv.toNat → (atSample demo n).voicePlays v)
      ∧ (Inv fresh ∧ fresh.ready ∧ fresh.ctrl.present = false ∧ 0 < fresh.cfg.block.toNat ∧ 0 < fresh.cfg.nv.toNat
        ∧ ((atSample fresh 0).voice 0).waveSet = false)
      ∧ (Inv lost ∧ lost.ready ∧ lost.ctrl.present = false ∧ 0 < lost.cfg.block.toNat ∧ 0 < lost.cfg.nv.toNat
        ∧ ((atSample lost 0).voice 0).waveSet = true ∧ ((atSample lost 0).voice 0).rateSet = true
        ∧ floorU ((atSample lost 0).voice 0).position ((atSample lost 0).voice 0).actLen = none) := by
  refine ⟨⟨demo_inv, demo_ready, rfl, fun n hn => only_voice ?_⟩,
    ⟨fresh_inv, ⟨rfl, rfl⟩, rfl, by decide, by decide, by decide +kernel⟩,
    lost_inv, ⟨rfl, rfl⟩, rfl, by decide, by decide, by decide +kernel⟩
  have h : n < 2 := hn
  unfold State.voicePlays
  match n, h with
  | 0, _ => decide +kernel
  | 1, _ => decide +kernel

theorem witness_ControlAndFrequencyMailboxes :
    demo.ready ∧ demo.freq.present = false
      ∧ (demo.setFreq { value := 7, present := true }).ready
      ∧ (demo.setFreq { value := 7, present := true }).freq.present = true := ⟨demo_ready, rfl, ⟨rfl, rfl⟩, rfl⟩

theorem witness_PlaybackFrame :
    (∃ t, exec (.vSetRate 0 3) demo = .next t) ∧ (∃ t, exec (.vSetWave 0 1) demo = .next t)
      ∧ (∃ t, exec (.vNext 0) demo = .next t) ∧ (∃ t, exec (.engProc 0x3F800000) demo = .next t)
      ∧ (∃ t, exec (.pipeSmp 0x3F800000) demo = .next t) ∧ ∃ t, exec .pipeBlk demo = .next t := by
  refine ⟨?_, ?_, ?_, ?_, ?_, ?_⟩ <;> exact (next_of (p := fun _ => true) (by decide +kernel)).imp fun _ h => h.1

/-- A window waits; the analyzer's turn by the schedule, and by an unfinished command on the port. -/
def waiting (q : List Word) (d : List Turn) : State :=
  retouch demo demo.mem demo.an { full := true, drop := 0 } { hwr := 2, hopCnt := 0, fill := 2 }
    { lpfEn := false, anAuto := true } q d

theorem witness_AgentTakesWindow :
    ((waiting [0] [.analyzer]).mem.wf = true ∧ (waiting [0] [.analyzer]).analyzerNext
        ∧ (waiting [0] [.analyzer]).running = true ∧ (waiting [0] [.analyzer]).fault = 0
        ∧ (waiting [0] [.analyzer]).ctl.anAuto = true ∧ (waiting [0] [.analyzer]).wmb.full = true
        ∧ (waiting [0] [.analyzer]).an.busy = false)
      ∧ (waiting [0x11000000] []).analyzerNext :=
  ⟨⟨demo_inv.memWf, .inl rfl, rfl, rfl, rfl, rfl, rfl⟩, .inr ⟨.inl rfl, by decide⟩⟩

/-- An analysis that ends, not primed, and one that does not converge. -/
theorem witness_AgentRunsAnalysis :
    (Inv (analysing 0xFF800000 true) ∧ (analysing 0xFF800000 true).analyzerNext
        ∧ (analysing 0xFF800000 true).running = true ∧ (analysing 0xFF800000 true).fault = 0
        ∧ (analysing 0xFF800000 true).an.busy = true
        ∧ anTransform (analysing 0xFF800000 true) = .ok () (spectrumOf 0xFF800000 true)
        ∧ (spectrumOf 0xFF800000 true).peakBin 0
        ∧ (analysing 0xFF800000 true).estimate (spectrumOf 0xFF800000 true) 0 = some plusInf)
      ∧ (Inv (analysing 0x7FC00000 true) ∧ (analysing 0x7FC00000 true).analyzerNext
        ∧ (analysing 0x7FC00000 true).running = true ∧ (analysing 0x7FC00000 true).fault = 0
        ∧ (analysing 0x7FC00000 true).an.busy = true
        ∧ anTransform (analysing 0x7FC00000 true) = .ok () (spectrumOf 0x7FC00000 true)
        ∧ (spectrumOf 0x7FC00000 true).peakBin 0
        ∧ (analysing 0x7FC00000 true).estimate (spectrumOf 0x7FC00000 true) 0 = none) :=
  ⟨⟨analysing_inv _ _ (.inl rfl), .inl rfl, rfl, rfl, rfl, spectrum_done.2.2.1, (spectrum_peak _).1, estimate_found _⟩,
    analysing_inv _ _ (.inr rfl), .inl rfl, rfl, rfl, rfl, spectrum_done.2.2.2, (spectrum_peak _).2, estimate_lost _⟩

theorem witness_AgentComesToRest : Inv (sending []) ∧ (sending []).port = [] ∧ (sending []).sched = [] :=
  ⟨sending_inv _, rfl, rfl⟩

theorem witness_AudioIgnoresAnalyzer :
    (onAudioPath (.engProc 0x3F800000) = true
        ∧ demo.audioPart = (demo.setFreq { value := 7, present := true }).audioPart
        ∧ ∃ t, exec (.engProc 0x3F800000) demo = .next t)
      ∧ ∃ t, analyzerTurn (waiting [] []) = .next t ∧ t.fault = (waiting [] []).fault := by
  refine ⟨⟨rfl, rfl, ?_⟩, ?_⟩
  · exact (next_of (p := fun _ => true) (by decide +kernel)).imp fun _ h => h.1
  · obtain ⟨t, h, hp⟩ := next_of (o := analyzerTurn (waiting [] [])) (p := fun t => t.fault == 0) (by decide +kernel)
    exact ⟨t, h, eq_of_beq hp⟩

theorem witness_StepKeepsInvariant : Inv (sending [0x51000000]) ∧ ∃ t, step (sending [0x51000000]) = .next t :=
  ⟨sending_inv _, (next_of (p := fun _ => true) (by decide +kernel)).imp fun _ h => h.1⟩

theorem witness_StepNeverStops : Inv demo := demo_inv

end Sys2Proof.Tests
end

section
/-! SUPPORT. The turn of the command agent and of the analyzer agent, and what a command's response says of its
pseudocode (00_scope.md R14, R17). -/

namespace Sys2Proof.Machine

/-! ## Whose turn it is -/

/-- A turn of the command agent is `commandTurn` on the state without that turn (R17). -/
theorem step_of_commandNext {s : State} (h : s.commandNext) : step s = commandTurn (s.setSched s.sched.tail) := by
  have hs : takeTurn s = commandTurn (s.setSched s.sched.tail) := by
    unfold takeTurn
    rcases h with h | h
    · have hself : s.setSched s.sched.tail = s := by rw [h, List.tail_nil, ← h]; rfl
      rw [hself, h]
    · obtain ⟨rest, hrest⟩ := List.head?_eq_some_iff.1 h
      rw [hrest]; rfl
  exact hs

/-- The command agent executes the command at the head of the port (30_encoding.md R80). -/
theorem commandTurn_of_command {s : State} {i : Instr} {rest : List Word} (h : decode s.port = .command i rest) :
    commandTurn s = exec i (s.setPort rest) := by
  unfold commandTurn; rw [h]

/-- A command turn with nothing complete on the port is the analyzer agent's (logs 2 and 17). -/
theorem commandTurn_of_incomplete {s : State} (h : decode s.port = .incomplete) : commandTurn s = analyzerTurn s := by
  unfold commandTurn; rw [h]

/-- With no turn fixed and nothing on the port the step is the analyzer agent's (log 2). -/
theorem step_of_empty {s : State} (hp : s.port = []) (hd : s.sched = []) : step s = analyzerTurn s := by
  rw [step_of_commandNext (.inl hd), commandTurn_of_incomplete (by rw [State.setSched_port, hp]; rfl), hd,
    List.tail_nil, ← hd]
  rfl

/-! ## A command and its response -/

/-- Every command is admission followed by pseudocode of its own (30_encoding.md R92). -/
theorem exec_eq_command (i : Instr) (s : State) : ∃ lock need body, exec i s = command lock need body s := by
  cases i <;>
    · simp only [exec]
      exact ⟨_, _, _, rfl⟩

/-- The last response sent is the one of the command that has ended. -/
theorem State.answered_respond_iff {s t : State} {st st' : Status} {rs rs' : List Word} :
    s.answered (t.respond st rs) st' rs' ↔ t.resp = s.resp ∧ st = st' ∧ rs = rs' := by
  unfold State.answered
  rw [State.respond_resp]
  constructor
  · intro h
    obtain ⟨h1, h2⟩ := List.append_inj' h rfl
    simp only [List.cons.injEq, Response.mk.injEq, and_true] at h2
    exact ⟨h1, h2⟩
  · rintro ⟨h, rfl, rfl⟩; rw [h]

/-- A response with an error status is that of a refusal, sent from the state before the command; pseudocode that
completes or raises is answered ST_OK or ST_FAULT (R14). -/
theorem command_refused {lock : Bool} {need : RunNeed} {body : M (List Word)} {s t : State} {st : Status}
    {rs : List Word} (h : command lock need body s = .next t) (ha : s.answered t st rs) (hok : st ≠ .ok) (hfault : st ≠ .fault) :
    t = s.respond st [] := by
  rcases outcomeOf_cases (do admission lock need; body) s with
    ⟨rs', u, -, ho⟩ | ⟨u, -, ho⟩ | ⟨st', u, -, ho⟩ | ⟨f, u, -, ho⟩
  all_goals
    rw [command, ho] at h
    cases h
  case inl => exact absurd (State.answered_respond_iff.1 ha).2.1.symm hok
  case inr.inl => exact absurd (State.answered_respond_iff.1 ha).2.1.symm hfault
  case inr.inr.inl => rw [(State.answered_respond_iff.1 ha).2.1]

end Sys2Proof.Machine

open Sys2Proof Sys2Proof.Machine

/-- Settles O6: the turn of the command agent decodes the port, in the state without that turn. -/
theorem stepRunsDecodedCommand : Obligations.StepRunsDecodedCommand := by
  intro s i rest hnext hdec
  rw [step_of_commandNext hnext, commandTurn_of_command (s := s.setSched s.sched.tail) hdec]
  rfl

/-- Settles O8, from `command_refused`: every command is a `command`. -/
theorem refusalChangesNothing : Obligations.RefusalChangesNothing := by
  intro i s t st rs hexec hans hok hfault
  obtain ⟨lock, need, body, hcommand⟩ := exec_eq_command i s
  exact command_refused (hcommand.symm.trans hexec) hans hok hfault
end

section
/-! SUPPORT. The constraints of 00_scope.md R12 on the parameter functions. -/

namespace Sys2Proof.Machine

/-! ## The window and the twiddle factors (R12 (b), (c)) -/

theorem winCoef_zero (n : Nat) : winCoef n 0 = pzero := rfl

theorem winCoef_half {n : Nat} (hn : 2 ≤ n) (he : n % 2 = 0) : winCoef n (n / 2) = fOne := by
  unfold winCoef
  rw [if_neg (by omega), if_pos (by omega)]

theorem winCoef_quarter {n i : Nat} (hn : 4 ≤ n) (hi : 4 * i = n ∨ 4 * i = 3 * n) : winCoef n i = fHalf := by
  unfold winCoef
  rw [if_neg (by omega), if_neg (by omega), if_pos ⟨hn, hi⟩]

theorem twCos_quarter {n : Nat} (hn : 4 ≤ n) (he : n % 4 = 0) : twCos n (n / 4) = pzero := by
  unfold twCos
  rw [if_neg (by omega), if_pos (by omega)]

theorem twSin_quarter {n : Nat} (hn : 4 ≤ n) (he : n % 4 = 0) : twSin n (n / 4) = fOne := by
  unfold twSin
  rw [if_neg (by omega), if_pos (by omega)]

/-! ## The arc tangent (R12 (d)) -/

theorem fabs_toNat (a : F32) : (fabs a).toNat = a.toNat % 2 ^ 31 := by
  unfold fabs
  rw [BitVec.toNat_and]
  exact Nat.and_two_pow_sub_one_eq_mod a.toNat 31

/-- Clearing the sign bit leaves the exponent field as it was (R7, R9). -/
theorem fExp_fabs (a : F32) : fExp (fabs a) = fExp a := by
  unfold fExp
  rw [fabs_toNat]
  omega

/-- The value of a number without its sign is its magnitude (R9). -/
theorem fUnits_fabs (a : F32) : fUnits (fabs a) = fMag (fabs a) := by
  have hs : fSign (fabs a) = false := by
    unfold fSign
    rw [fabs_toNat, decide_eq_false_iff_not]
    omega
  unfold fUnits
  rw [hs, if_neg Bool.false_ne_true]

theorem fMag_of_fExp_eq {a : F32} (h : fExp a = 255) : 2 ^ 254 ≤ fMag a := by
  unfold fMag
  rw [h, if_neg (by decide)]
  exact Nat.le_mul_of_pos_left _ (by omega)

/-- A number at most the bound of R12 (d) is neither an infinity nor a NaN. -/
theorem isFinite_of_fle_fPi {a : F32} (h : fle (fabs a) fPi = true) : isFinite a = true := by
  have hle : fUnits (fabs a) ≤ fUnits fPi := by
    unfold fle at h
    exact of_decide_eq_true (Bool.and_eq_true_iff.1 h).2
  have hpi : fUnits fPi < ((2 ^ 254 : Nat) : Int) := by decide
  unfold isFinite
  rw [bne_iff_ne]
  intro he
  have hbig := fMag_of_fExp_eq ((fExp_fabs a).trans he)
  rw [fUnits_fabs] at hle
  omega

theorem isNaN_of_isFinite {a : F32} (h : isFinite a = true) : isNaN a = false := by
  unfold isFinite at h
  unfold isNaN
  rw [beq_false_of_ne (bne_iff_ne.1 h), Bool.false_and]

/-- The arc tangent of a NaN operand is a NaN. -/
theorem isNaN_atan2 {y x : F32} (h : (isNaN y || isNaN x) = true) : isNaN (atan2 y x) = true := by
  unfold atan2
  rw [if_pos h]
  split
  · assumption
  · decide

/-- The arc tangent of numbers is at most the bound. -/
theorem fle_atan2 {y x : F32} (h : (isNaN y || isNaN x) = false) : fle (fabs (atan2 y x)) fPi = true := by
  unfold atan2
  rw [if_neg (by rw [h]; decide)]
  split
  · assumption
  · decide

theorem isNaN_atan2_iff {y x : F32} : isNaN (atan2 y x) = true ↔ isNaN y = true ∨ isNaN x = true := by
  rw [← Bool.or_eq_true_iff]
  refine ⟨fun h => ?_, isNaN_atan2⟩
  by_contra hc
  rw [isNaN_of_isFinite (isFinite_of_fle_fPi (fle_atan2 (Bool.eq_false_of_not_eq_true hc)))] at h
  cases h

end Sys2Proof.Machine

open Sys2Proof Sys2Proof.Machine

/-- Settles O31: the values at the fixed points of R12 (b) and (c), and what bounds the arc tangent (R12 (d)). -/
theorem parametersConstrained : Obligations.ParametersConstrained := by
  refine ⟨fun n hn he => ⟨winCoef_zero n, winCoef_half hn he⟩, fun n hn he => ?_, fun n => ⟨rfl, rfl⟩,
    fun n hn he => ⟨twCos_quarter hn he, twSin_quarter hn he⟩, fun y x => isNaN_atan2_iff, fun y x hy hx => ?_⟩
  · exact ⟨winCoef_quarter hn (by omega), winCoef_quarter hn (by omega)⟩
  · have hle := fle_atan2 (y := y) (x := x) (by rw [hy, hx]; rfl)
    exact ⟨isFinite_of_fle_fPi hle, hle⟩
end
section
/-! SUPPORT. A logic for pseudocode that must not meet a fault of the model's own (logs 9 and 10). -/

namespace Sys2Proof.Machine

variable {α β : Type}

/-- Run from `s`, the pseudocode does not stop with a fault of the model's own, and where it ends normally `Q` holds of
its result and of the state it leaves. A raise and a refusal are ends that the spec knows (R14). -/
structure Runs (x : M α) (s : State) (Q : α → State → Prop) : Prop where
  post : ∀ {a t}, x s = .ok a t → Q a t
  noFault : ∀ {f t}, x s ≠ .error (.fault f) t

theorem Runs.of_ok {x : M α} {s t : State} {a : α} {Q : α → State → Prop} (h : x s = .ok a t) (hq : Q a t) :
    Runs x s Q :=
  ⟨fun h' => by cases h.symm.trans h'; exact hq, fun h' => nomatch h.symm.trans h'⟩

theorem Runs.of_raised {x : M α} {s t : State} {Q : α → State → Prop} (h : x s = .error .raised t) : Runs x s Q :=
  ⟨fun h' => (nomatch h.symm.trans h'), fun h' => nomatch h.symm.trans h'⟩

theorem Runs.of_refused {x : M α} {s t : State} {st : Status} {Q : α → State → Prop}
    (h : x s = .error (.refused st) t) : Runs x s Q :=
  ⟨fun h' => (nomatch h.symm.trans h'), fun h' => nomatch h.symm.trans h'⟩

/-- Only what the pseudocode does from `s` matters. -/
theorem Runs.congr {x y : M α} {s u : State} {Q : α → State → Prop} (h : x s = y u) (hy : Runs y u Q) : Runs x s Q :=
  ⟨fun h' => hy.post (h ▸ h'), fun h' => hy.noFault (h ▸ h')⟩

/-- Sequencing: the second part runs from every state the first part can leave. -/
theorem Runs.bind {x : M α} {f : α → M β} {s : State} {Q : α → State → Prop} {R : β → State → Prop} (hx : Runs x s Q)
    (hf : ∀ a t, Q a t → Runs (f a) t R) : Runs (x >>= f) s R := by
  constructor
  · intro b u h
    obtain ⟨a, t, h1, h2⟩ := M.bind_ok_iff.1 h
    exact (hf a t (hx.post h1)).post h2
  · intro e u h
    rcases M.bind_error_iff.1 h with h1 | ⟨a, t, h1, h2⟩
    · exact hx.noFault h1
    · exact (hf a t (hx.post h1)).noFault h2

/-- Sequencing after a part whose end is known. -/
theorem Runs.bind_ok {x : M α} {f : α → M β} {s t : State} {a : α} {R : β → State → Prop} (hx : x s = .ok a t)
    (hf : Runs (f a) t R) : Runs (x >>= f) s R :=
  .bind (.of_ok (Q := fun b u => b = a ∧ u = t) hx ⟨rfl, rfl⟩) (by rintro _ _ ⟨rfl, rfl⟩; exact hf)

theorem Runs.pure {a : α} {s : State} {Q : α → State → Prop} (h : Q a s) : Runs (Pure.pure a : M α) s Q := .of_ok rfl h

theorem Runs.raise {c : FaultCause} {i : Word} {s : State} {Q : α → State → Prop} : Runs (raiseFault c i : M α) s Q :=
  .of_raised rfl

theorem Runs.refuse {st : Status} {s : State} {Q : α → State → Prop} : Runs (refuse st : M α) s Q := .of_refused rfl

theorem M.bind_congr_left {x y : M α} {f : α → M β} {s : State} (h : x s = y s) : (x >>= f) s = (y >>= f) s := by
  rw [M.bind_apply, M.bind_apply, h]

/-- What follows a check may use it. -/
theorem Runs.require {b : Bool} {st : Status} {s : State} {f : Unit → M β} {R : β → State → Prop}
    (h : b = true → Runs (f ()) s R) : Runs (require b st >>= f) s R := by
  rcases require_cases b st s with ⟨hb, hr⟩ | ⟨-, hr⟩
  · exact .bind_ok hr (h hb)
  · exact .of_refused (M.bind_of_error hr)

theorem Runs.ite {c : Prop} [Decidable c] {x y : M α} {s : State} {Q : α → State → Prop} (hx : c → Runs x s Q)
    (hy : ¬ c → Runs y s Q) : Runs (if c then x else y) s Q := by
  split
  · exact hx ‹_›
  · exact hy ‹_›

/-- A loop whose every round keeps `P` runs and keeps `P`. -/
theorem Runs.forFrom {P : State → Prop} {body : Nat → M Unit} (n a : Nat)
    (h : ∀ i t, i < a + n → P t → Runs (body i) t (fun _ u => P u)) {s : State} (hs : P s) :
    Runs (forFrom n a body) s (fun _ t => P t) := by
  induction n generalizing a s with
  | zero => exact .pure hs
  | succ n ih =>
    rw [forFrom_succ]
    exact (h a s (by omega) hs).bind fun _ t ht => ih (a + 1) (fun i u hi => h i u (by omega)) ht

/-- A command answers a next state when its own pseudocode runs in the states that admission lets through. -/
theorem command_next {lock : Bool} {need : RunNeed} {body : M (List Word)} {s : State}
    (h : need.met s.running = true → Runs body s (fun _ _ => True)) : ∃ t, command lock need body s = .next t := by
  have hruns : Runs (do admission lock need; body) s (fun _ _ => True) := by
    rcases admit_cases lock need s with ⟨-, ha⟩ | ⟨-, -, ha⟩ | ⟨-, hmet, ha⟩
    · exact .of_refused (M.bind_of_error ha)
    · exact .of_refused (M.bind_of_error ha)
    · exact .bind_ok ha (h hmet)
  rcases outcomeOf_cases (do admission lock need; body) s with
    ⟨_, t, -, ho⟩ | ⟨t, -, ho⟩ | ⟨_, _, -, ho⟩ | ⟨f, t, hf, -⟩
  · exact ⟨_, ho⟩
  · exact ⟨_, ho⟩
  · exact ⟨_, ho⟩
  · exact absurd hf hruns.noFault

/-- An agent step answers a next state when its pseudocode runs. -/
theorem agentOutcome_next {body : M Unit} {s : State} (h : Runs body s (fun _ _ => True)) :
    ∃ t, agentOutcome body s = .next t := by
  unfold agentOutcome
  cases hb : body s with
  | ok a t => exact ⟨t, rfl⟩
  | error e t =>
    cases e with
    | raised => exact ⟨t, rfl⟩
    | refused st => exact ⟨s, rfl⟩
    | fault f => exact absurd hb h.noFault

end Sys2Proof.Machine
end

section
/-! SUPPORT. The analyzer ends, whatever the work buffer holds (43_analyzer.md R160 to R168). -/

namespace Sys2Proof.Machine

/-! ## Numbers -/

theorem bitrev_lt (i b : Nat) : bitrev i b < 2 ^ b := by
  induction b generalizing i with
  | zero => exact Nat.one_pos
  | succ b ih =>
    have hbit : i % 2 * 2 ^ b ≤ 1 * 2 ^ b := Nat.mul_le_mul_right _ (by omega)
    have hrest := ih (i / 2)
    rw [bitrev, Nat.pow_succ]
    omega

/-- Block `q` of the `n / m` blocks of a stage lies below `n`. -/
theorem block_end_le {n m q : Nat} (hq : q < n / m) : q * m + m ≤ n := by
  calc q * m + m = (q + 1) * m := (Nat.succ_mul q m).symm
    _ ≤ n / m * m := Nat.mul_le_mul_right m hq
    _ ≤ n := Nat.div_mul_le_self n m

/-- The twiddle index of butterfly `j` of a block lies in the table. -/
theorem twiddle_lt {b c j : Nat} (hj : j < 2 ^ c) : j * 2 ^ b < 2 ^ (c + b) := by
  rw [Nat.pow_add]
  exact Nat.mul_lt_mul_of_pos_right hj (Nat.two_pow_pos b)

/-- The state after an analysis that has found bin `k` and left the memory `m`. -/
def State.analysed (s : State) (m : Memory) (k : Nat) : State :=
  (s.setMem m).setAn { s.an with k := u32 k, fEst := coarseEstimate s.cfg k }

theorem anRefine_of_some {pk : Peak} {fEst f : F32} {s : State} (h : refined s.cfg pk fEst = some f) :
    anRefine pk fEst s = .ok f s := by
  unfold anRefine
  rw [M.bind_of_ok (M.get_apply s), h]
  rfl

theorem anRefine_of_none {pk : Peak} {fEst : F32} {s : State} (h : refined s.cfg pk fEst = none) :
    anRefine pk fEst s = .error .raised (s.recordFault .analyzerNoConverge (u32 pk.k)) := by
  unfold anRefine
  rw [M.bind_of_ok (M.get_apply s), h]
  rfl

/-! ## The pieces, each ended normally with no more than the memory changed -/

theorem MemOnly.running {s t : State} (h : MemOnly s t) : t.running = s.running := by rw [h.1]; rfl

theorem MemOnly.an {s t : State} (h : MemOnly s t) : t.an = s.an := by rw [h.1]; rfl

/-- Two cells exchanged (R162). -/
theorem swapCells_memOnly {s t : State} {sp : Space} {i j : Nat} (ht : MemOnly s t) (hi : i < s.spaceSize sp)
    (hj : j < s.spaceSize sp) : ∃ u, swapCells sp i j t = .ok () u ∧ MemOnly s u :=
  ⟨_, swapCells_apply (by rw [ht.spaceSize]; exact hi) (by rw [ht.spaceSize]; exact hj),
    (ht.poke sp i _).poke sp j _⟩

section
variable {s : State} (hr : s.running = true)
include hr

theorem spaceSize_of_running (sp : Space) : s.spaceSize sp = s.cfg.spaceSize sp := if_pos hr

/-- `AnWindow` (R161). -/
theorem anWindow_memOnly (hwf : s.mem.wf = true) : ∃ u, anWindow s = .ok () u ∧ MemOnly s u := by
  have hsz := spaceSize_of_running hr
  unfold anWindow
  rw [M.bind_of_ok (M.get_apply s)]
  refine forFrom_ok (P := fun _ t => MemOnly s t) _ 0 (fun i t _ hi ht => ?_) (MemOnly.refl hwf)
  have hcell : ∀ sp, s.cfg.spaceSize sp = s.cfg.win.toNat → i < t.spaceSize sp := fun sp h => by
    rw [ht.spaceSize, hsz, h]; omega
  refine ⟨_, ?_, (ht.poke .anRe i (fmul (t.peek .anRe i) (t.peek .anWin i))).poke .anIm i pzero⟩
  rw [M.bind_of_ok (loadCell_of_lt (hcell .anRe rfl)), M.bind_of_ok (loadCell_of_lt (hcell .anWin rfl)),
    M.bind_of_ok (storeCell_of_lt (hcell .anRe rfl))]
  exact storeCell_of_lt (hcell .anIm rfl)

/-- The bit-reversal permutation (R162). -/
theorem anPermute_memOnly {b : Nat} (hwf : s.mem.wf = true) (hb : s.cfg.win.toNat = 2 ^ b) :
    ∃ u, anPermute (2 ^ b) b s = .ok () u ∧ MemOnly s u := by
  have hsz := spaceSize_of_running hr
  refine forFrom_ok (P := fun _ t => MemOnly s t) (2 ^ b) 0 (fun i t _ hi ht => ?_) (MemOnly.refl hwf)
  have hcell : ∀ k sp, s.cfg.spaceSize sp = s.cfg.win.toNat → k < 2 ^ b → k < s.spaceSize sp := fun k sp h hk => by
    rw [hsz, h, hb]; exact hk
  have hi' : i < 2 ^ b := by omega
  have hj := bitrev_lt i b
  by_cases hij : i < bitrev i b
  · obtain ⟨u, hu, hsu⟩ := swapCells_memOnly ht (hcell i .anRe rfl hi') (hcell _ .anRe rfl hj)
    obtain ⟨v, hv, hsv⟩ := swapCells_memOnly hsu (hcell i .anIm rfl hi') (hcell _ .anIm rfl hj)
    exact ⟨v, (M.ite_apply _ _ _).trans ((if_pos hij).trans ((M.bind_of_ok hu).trans hv)), hsv⟩
  · exact ⟨t, (M.ite_apply _ _ _).trans (if_neg hij), ht⟩

/-- One stage (R162). -/
theorem fftStage_memOnly {b st : Nat} (hwf : s.mem.wf = true) (hb : s.cfg.win.toNat = 2 ^ b) (h1 : 1 ≤ st)
    (hst : st ≤ b) : ∃ u, fftStage (2 ^ b) st s = .ok () u ∧ MemOnly s u := by
  obtain ⟨c, rfl⟩ : ∃ c, st = c + 1 := ⟨st - 1, by omega⟩
  have hhalf : 2 ^ (c + 1) / 2 = 2 ^ c := by rw [Nat.pow_succ]; omega
  have hstep : 2 ^ b / 2 ^ (c + 1) = 2 ^ (b - (c + 1)) := Nat.pow_div hst (by decide)
  have htable : 2 ^ b / 2 = 2 ^ (c + (b - (c + 1))) := by
    rw [show c + (b - (c + 1)) = b - 1 by omega]; exact Nat.pow_div (m := b) (n := 1) (by omega) (by decide)
  refine forFrom_ok (P := fun _ t => MemOnly s t) _ 0 (fun q t _ hq ht => ?_) (MemOnly.refl hwf)
  refine forFrom_ok (P := fun _ t => MemOnly s t) _ 0 (fun j u _ hj hu => ?_) ht
  have hend : q * 2 ^ (c + 1) + 2 ^ (c + 1) ≤ 2 ^ b := block_end_le (by omega)
  have hm : 2 ^ (c + 1) = 2 ^ c + 2 ^ c := by rw [Nat.pow_succ]; omega
  have hj' : j < 2 ^ c := by omega
  have hrun : u.running = true := by rw [hu.running]; exact hr
  refine ⟨_, butterfly_apply hrun ?_ ?_ ?_, (((hu.poke _ _ _).poke _ _ _).poke _ _ _).poke _ _ _⟩
  · rw [hu.cfg, hb]; omega
  · rw [hu.cfg, hb, hhalf]; omega
  · rw [hu.cfg, hb, htable, hstep]; exact twiddle_lt hj'

/-- `AnFft` on a window whose length is a power of two (R162). -/
theorem anFft_memOnly {b : Nat} (hwf : s.mem.wf = true) (hb : s.cfg.win.toNat = 2 ^ b) :
    ∃ u, anFft s = .ok () u ∧ MemOnly s u := by
  obtain ⟨u, hu, hsu⟩ := anPermute_memOnly hr hwf hb
  obtain ⟨v, hv, hsv⟩ := forFrom_ok (P := fun _ t => MemOnly s t) (body := fun st => fftStage (2 ^ b) st) b 1
    (fun st t h1 hst ht => by
      obtain ⟨w, hw, htw⟩ := fftStage_memOnly (s := t) (by rw [ht.running]; exact hr) ht.2 (by rw [ht.cfg]; exact hb) h1
        (by omega : st ≤ b)
      exact ⟨w, hw, ht.trans htw⟩) hsu
  refine ⟨v, ?_, hsv⟩
  unfold anFft
  rw [M.bind_of_ok (M.get_apply s), hb]
  simp only [Nat.log2_two_pow]
  rw [M.bind_of_ok hu]
  exact hv

/-- The scan ends with a bin it has seen (R163). -/
theorem peakSearch_lt {m : Nat} (hm : m ≤ s.cfg.win.toNat) (n b k : Nat) (best : F32) (hb : b + n ≤ m) (hk : k < m) :
    ∃ k', k' < m ∧ peakSearch n b k best s = .ok k' s := by
  induction n generalizing b k best with
  | zero => exact ⟨k, hk, rfl⟩
  | succ n ih =>
    unfold peakSearch
    rw [M.bind_of_ok (binMagnitude_apply hr (by omega)), M.ite_apply]
    split
    · exact ih (b + 1) b _ (by omega) (by omega)
    · exact ih (b + 1) k _ (by omega) hk

/-- `AnPeak` (R163): it ends with a bin of the lower half, whose number is in the register. -/
theorem anPeak_apply (hwf : s.mem.wf = true) (hw : 2 ≤ s.cfg.win.toNat) :
    ∃ pk u, anPeak s = .ok pk (u.setAn { s.an with k := u32 pk.k }) ∧ pk.k < s.cfg.win.toNat / 2 ∧ MemOnly s u := by
  have hsz := spaceSize_of_running hr
  obtain ⟨k, hk, hsearch⟩ := peakSearch_lt hr (m := s.cfg.win.toNat / 2) (by omega) (s.cfg.win.toNat / 2 - 1) 1 0
    (s.binMag 0) (by omega) (by omega)
  obtain ⟨u, hu, hsu, -, -⟩ := phaseLoop_apply hr hwf
  have hphase : k < s.spaceSize .anPhase := by rw [hsz]; exact hk
  have hphase' : ∀ x, k < (u.setAn x).spaceSize .anPhase := fun x => by
    rw [← hsu.spaceSize] at hphase; exact hphase
  refine ⟨⟨k, s.peek .anPhase k, u.peek .anPhase k⟩, u, ?_, hk, hsu⟩
  unfold anPeak
  rw [M.bind_of_ok (M.get_apply s), M.bind_of_ok (binMagnitude_apply hr (by omega)), M.bind_of_ok hsearch,
    M.bind_of_ok (loadCell_of_lt hphase), M.bind_of_ok hu, M.bind_of_ok (M.modify_apply _ _)]
  refine (M.bind_of_ok (loadCell_of_lt (hphase' _))).trans ?_
  rw [← hsu.an]; rfl

/-- All that `AnRun` can do (R167): an estimate, or the refinement's fault; the memory and the analyzer's two registers
change besides. -/
theorem anRun_cases {b : Nat} (hwf : s.mem.wf = true) (hb : s.cfg.win.toNat = 2 ^ (b + 1)) :
    ∃ m k, m.wf = true ∧ ((∃ f, anRun s = .ok f (s.analysed m k))
      ∨ anRun s = .error .raised ((s.analysed m k).recordFault .analyzerNoConverge (u32 k))) := by
  obtain ⟨u, hu, hsu⟩ := anWindow_memOnly hr hwf
  obtain ⟨v, hv, huv⟩ := anFft_memOnly (s := u) (by rw [hsu.running]; exact hr) hsu.2 (by rw [hsu.cfg]; exact hb)
  have hsv := hsu.trans huv
  obtain ⟨pk, w, hw, -, hvw⟩ := anPeak_apply (s := v) (by rw [hsv.running]; exact hr) hsv.2
    (by rw [hsv.cfg, hb, Nat.pow_succ]; have := Nat.two_pow_pos b; omega)
  have hsw := hsv.trans hvw
  have hcoarse : anCoarse pk.k (w.setAn { v.an with k := u32 pk.k })
      = .ok (coarseEstimate s.cfg pk.k) (s.analysed w.mem pk.k) := by
    rw [hsv.an, hsw.1]; rfl
  have hrun : anRun s = anRefine pk (coarseEstimate s.cfg pk.k) (s.analysed w.mem pk.k) := by
    unfold anRun
    rw [M.bind_of_ok hu, M.bind_of_ok hv, M.bind_of_ok hw, M.bind_of_ok hcoarse]
  refine ⟨w.mem, pk.k, hvw.2, ?_⟩
  cases href : refined s.cfg pk (coarseEstimate s.cfg pk.k) with
  | some f => exact .inl ⟨f, hrun.trans (anRefine_of_some href)⟩
  | none => exact .inr (hrun.trans (anRefine_of_none href))

end
end Sys2Proof.Machine
end

section
/-! SUPPORT. The bounds that keep every unit inside the memories and the voices of a running block, and that every unit
keeps them. -/

namespace Sys2Proof.Machine

/-! ## The bounds -/

/-- The buffers a voice plays, or will play, fit in `VBUF` (20_memory.md R61). -/
def Voice.fits (c : Cfg) (v : Voice) : Prop :=
  v.actLen.toNat ≤ c.wt.toNat ∧ (v.pending = true → v.swapLen.toNat ≤ c.wt.toNat)

/-- A running block with the configuration `c` whose indexes lie below the capacities they run in. -/
structure InBounds (c : Cfg) (s : State) : Prop where
  cfg : s.cfg = c
  running : s.running = true
  memWf : s.mem.wf = true
  window : ∃ b, c.win.toNat = 2 ^ (b + 1)
  nv : c.nv.toNat ≤ 256
  ctWr : s.ct.wr.toNat < c.ring.toNat
  hwr : s.pipe.hwr.toNat < c.hist.toNat
  rr : s.eng.rr.toNat < c.nv.toNat
  voices : ∀ v, v < c.nv.toNat → (s.voice v).fits c

/-- A size that passes check 3 of R102 is a power of two from 2 on. -/
theorem window_of_valid {c : Cfg} (h : c.valid = true) : ∃ b, c.win.toNat = 2 ^ (b + 1) := by
  simp only [Cfg.valid, configChecks, isPow2, List.all_cons, id, Bool.and_eq_true, beq_iff_eq, decide_eq_true_eq] at h
  obtain ⟨-, -, ⟨⟨⟨-, hpow⟩, htwo⟩, -⟩, -⟩ := h
  cases hlog : Nat.log2 c.win.toNat with
  | zero => rw [hlog] at hpow; omega
  | succ b => exact ⟨b, by rw [← hpow, hlog]⟩

theorem nv_le_of_valid {c : Cfg} (h : c.valid = true) : c.nv.toNat ≤ 256 := by
  simp only [Cfg.valid, configChecks, List.all_cons, id, Bool.and_eq_true, decide_eq_true_eq] at h
  obtain ⟨-, -, -, -, ⟨-, hnv⟩, -⟩ := h
  exact hnv

theorem VoiceInv.fits {c : Cfg} {v : Voice} (h : VoiceInv c v) : v.fits c :=
  ⟨h.actLen.2, fun hp => (h.swapLen (h.pending hp)).2⟩

/-- The invariant gives the bounds. -/
theorem InBounds.of_inv {s : State} (h : Inv s) (hr : s.running = true) : InBounds s.cfg s :=
  have hrun := h.running hr
  { cfg := rfl, running := hr, memWf := h.memWf, window := window_of_valid hrun.valid, nv := nv_le_of_valid hrun.valid
    ctWr := hrun.ctWr, hwr := hrun.hwr, rr := hrun.rr, voices := fun v hv => (hrun.voices v hv).fits }

/-! ## Updates that keep the bounds -/

namespace InBounds
variable {c : Cfg} {s : State} (h : InBounds c s)
include h

theorem setMem {m : Memory} (hm : m.wf = true) : InBounds c (s.setMem m) := { h with memWf := hm }
theorem setAn (x : An) : InBounds c (s.setAn x) := { h with }
theorem setWmb (x : Wmb) : InBounds c (s.setWmb x) := { h with }
theorem setFreq (x : Freq) : InBounds c (s.setFreq x) := { h with }
theorem setCtrl (x : Ctrl) : InBounds c (s.setCtrl x) := { h with }
theorem setFault (x i : Word) : InBounds c (s.setFault x i) := { h with }
theorem setPipe {x : Pipe} (hx : x.hwr.toNat < c.hist.toNat) : InBounds c (s.setPipe x) := { h with hwr := hx }
theorem setEng {x : Eng} (hx : x.rr.toNat < c.nv.toNat) : InBounds c (s.setEng x) := { h with rr := hx }

theorem setVoice (v : Nat) {x : Voice} (hx : x.fits c) : InBounds c (s.setVoice v x) :=
  { h with
    voices := fun u hu => by
      rw [State.voice_setVoice]
      split
      · exact hx
      · exact h.voices u hu }

theorem poke (sp : Space) (i : Nat) (w : Word) : InBounds c (s.poke sp i w) := h.setMem (State.poke_wf sp i w h.memWf)

theorem memOnly {t : State} (ht : MemOnly s t) : InBounds c t := by rw [ht.1]; exact h.setMem ht.2

theorem recordFault (x : FaultCause) (i : Word) : InBounds c (s.recordFault x i) := by
  unfold State.recordFault
  split
  · exact h.setFault _ _
  · exact h

/-! ## What the bounds give -/

theorem spaceSize (sp : Space) : s.spaceSize sp = c.spaceSize sp := by
  rw [spaceSize_of_running h.running, h.cfg]

theorem hasVoice {v : Nat} (hv : v < c.nv.toNat) : s.hasVoice v = true := by
  have hnv := h.nv
  unfold State.hasVoice
  rw [h.cfg, Bool.and_eq_true, decide_eq_true_eq, decide_eq_true_eq]
  omega

theorem vbuf_lt {v i : Nat} {p : Bool} (hv : v < c.nv.toNat) (hi : i < c.wt.toNat) :
    vbufIndex s.cfg.wt.toNat v p i < s.spaceSize .vbuf := by
  rw [h.spaceSize, h.cfg]
  exact vbufIndex_lt hv hi

end InBounds

/-- A circular index stays below its capacity (20_memory.md R70). -/
theorem incMod_lt (i : Word) {cap : Word} (h : 0 < cap.toNat) : (incMod i cap).toNat < cap.toNat := by
  have hmod := Nat.mod_lt (i.toNat + 1) h
  have hcap := cap.isLt
  unfold incMod u32
  rw [BitVec.toNat_ofNat, Nat.mod_eq_of_lt (by omega)]
  exact hmod

/-! ## Tracker and assignment -/

theorem State.track_ct_wr (s : State) (x : F32) : (s.track x).1.ct.wr = incMod s.ct.wr s.cfg.ring := by
  unfold State.track
  simp only [State.setCt_ct, State.detect_ct, State.setZdPrev_ct, apply_ite Ct.wr, ite_self]
  rfl

theorem InBounds.track {c : Cfg} {s : State} (h : InBounds c s) (x : F32) : InBounds c (s.track x).1 where
  cfg := by rw [State.track_cfg]; exact h.cfg
  running := by rw [State.track_running]; exact h.running
  memWf := by rw [State.track_mem]; exact State.poke_wf _ _ _ h.memWf
  window := h.window
  nv := h.nv
  ctWr := by
    have hwr := h.ctWr
    rw [State.track_ct_wr, h.cfg]
    exact incMod_lt _ (by omega)
  hwr := by rw [State.track_pipe]; exact h.hwr
  rr := by rw [State.track_eng]; exact h.rr
  voices := fun v hv => by unfold State.voice; rw [State.track_voices]; exact h.voices v hv

/-- A voice's rate has no part in where its buffers lie. -/
theorem Voice.fits_rate {c : Cfg} {v : Voice} (h : v.fits c) (p : Word) (i : F32) :
    ({ v with period := p, inc := i, rateSet := true } : Voice).fits c := h

theorem Voice.fits_withRate {c : Cfg} {v : Voice} (h : v.fits c) (p : Word) : (v.withRate p).fits c :=
  Voice.fits_rate h p (incOf p)

/-- The round-robin assignment, with the model's own operations (R196). -/
theorem State.assigned_cases (s : State) (y : Cycle) : s.assigned y = s
    ∨ s.assigned y = (s.setVoice s.eng.rr.toNat ((s.voice s.eng.rr.toNat).withRate y.length)).setEng
        { s.eng with rr := incMod s.eng.rr s.cfg.nv } := by
  unfold State.assigned
  split
  · exact .inr rfl
  · exact .inl rfl

theorem InBounds.assigned {c : Cfg} {s : State} (h : InBounds c s) (y : Cycle) : InBounds c (s.assigned y) := by
  have hrr := h.rr
  rcases s.assigned_cases y with hy | hy <;> rw [hy]
  · exact h
  · refine (h.setVoice _ (Voice.fits_withRate (h.voices _ hrr) y.length)).setEng ?_
    rw [h.cfg]
    exact incMod_lt _ (by omega)

theorem InBounds.tracked {c : Cfg} {s : State} (h : InBounds c s) (x : F32) : InBounds c (s.tracked x) :=
  (h.track x).assigned _

/-! ## Voices and engine -/

theorem Voice.fits_advance {c : Cfg} {v : Voice} (h : v.fits c) : v.advance.fits c := by
  unfold Voice.advance
  simp only
  split
  · split
    · exact ⟨h.2 ‹_›, fun hp => nomatch hp⟩
    · exact h
  · exact h

theorem voiceNext_runs {c : Cfg} {s : State} (h : InBounds c s) {v : Nat} (hv : v < c.nv.toNat) :
    Runs (voiceNext v) s (fun _ t => InBounds c t) := by
  have hhas := h.hasVoice hv
  by_cases hready : (s.voice v).waveSet = true ∧ (s.voice v).rateSet = true
  · cases hpos : floorU (s.voice v).position (s.voice v).actLen with
    | none => exact .of_raised (voiceNext_index hhas hready.1 hready.2 hpos)
    | some i =>
      have hplays : s.voicePlays v :=
        ⟨hhas, hready.1, hready.2, by rw [h.cfg]; exact (h.voices v hv).1, by rw [hpos]; rfl⟩
      exact .of_ok (voiceNext_of_plays h.running hplays) (h.setVoice v (Voice.fits_advance (h.voices v hv)))
  · rw [not_and_or, Bool.not_eq_true, Bool.not_eq_true] at hready
    exact .of_raised (voiceNext_notReady hhas hready)

theorem mixVoices_runs {c : Cfg} (amp : F32) (n i : Nat) (acc : F32) (hn : i + n ≤ c.nv.toNat) {s : State}
    (h : InBounds c s) : Runs (mixVoices amp n i acc) s (fun _ t => InBounds c t) := by
  induction n generalizing i acc s with
  | zero => exact .pure h
  | succ n ih => exact (voiceNext_runs h (by omega)).bind fun y t ht => ih (i + 1) _ (by omega) ht

theorem engProcess_runs {c : Cfg} {s : State} (h : InBounds c s) (x : F32) :
    Runs (engProcess x) s (fun _ t => InBounds c t) := by
  have ht := h.tracked x
  refine .congr (engProcess_apply h.running (by rw [h.cfg]; exact h.ctWr) (h.hasVoice h.rr)) ?_
  exact mixVoices_runs _ _ 0 _ (by rw [ht.cfg]; omega) ht

/-- The staged samples go to cells of `VBUF` (R192). -/
theorem voiceSetWaveform_runs {c : Cfg} {s : State} (h : InBounds c s) {v : Nat} {len : Word} (hv : v < c.nv.toNat)
    (hlen : len.toNat ≤ c.wt.toNat) : Runs (voiceSetWaveform v len) s (fun _ _ => True) := by
  unfold voiceSetWaveform
  refine .bind_ok (voiceAt_of_has (h.hasVoice hv)) (.bind (.forFrom (P := InBounds c) _ 0 (fun i t hi ht => ?_) h) ?_)
  · have hi' : i < c.wt.toNat := by omega
    refine .bind_ok (loadCell_of_lt (by rw [ht.spaceSize]; exact hi')) (.bind_ok (M.get_apply t) ?_)
    exact .of_ok (storeCell_of_lt (ht.vbuf_lt hv hi')) (ht.poke _ _ _)
  · exact fun _ t ht => .of_ok (putVoice_of_has (ht.hasVoice hv)) trivial

theorem voiceSetRate_runs {c : Cfg} {s : State} (h : InBounds c s) {v : Nat} (hv : v < c.nv.toNat) (p : Word) :
    Runs (voiceSetRate v p) s (fun _ _ => True) :=
  .bind_ok (voiceAt_of_has (h.hasVoice hv)) (.of_ok (putVoice_of_has (h.hasVoice hv)) trivial)

/-! ## Pipeline -/

theorem publishWindow_runs {c : Cfg} {s : State} (h : InBounds c s) :
    Runs publishWindow s (fun _ t => InBounds c t) := by
  have hhist : 0 < s.cfg.hist.toNat := by have := h.hwr; rw [h.cfg]; omega
  by_cases hpub : s.ctl.anAuto = true ∧ s.pipe.fill = s.cfg.win
  · obtain ⟨u, hsu, hu, -, -⟩ := publishWindow_some h.running h.memWf hpub.1 hpub.2 hhist
    exact .of_ok hu ((h.memOnly hsu).setWmb _)
  · rw [not_and_or, Bool.not_eq_true] at hpub
    exact .of_ok (publishWindow_none hpub) h

theorem historyWrite_runs {c : Cfg} {s : State} (h : InBounds c s) (x : F32) :
    Runs (historyWrite x) s (fun _ t => InBounds c t) := by
  have hwr := h.hwr
  refine .of_ok (historyWrite_apply h.running (by rw [h.cfg]; exact hwr)) ((h.poke _ _ _).setPipe ?_)
  rw [h.cfg]
  exact incMod_lt _ (by omega)

theorem sampleStep_runs {c : Cfg} {s : State} (h : InBounds c s) (x : F32) :
    Runs (sampleStep x) s (fun _ t => InBounds c t) := by
  refine (historyWrite_runs h x).bind fun _ t ht => .bind_ok (M.get_apply t) (.ite (fun _ => ?_) fun _ => ?_)
  · have hpub := publishWindow_runs (ht.setPipe (x := { t.pipe with hopCnt := 0 }) ht.hwr)
    exact .bind_ok (M.set_apply _ _) (hpub.bind fun _ u hu => engProcess_runs hu x)
  · exact engProcess_runs ht x

theorem blockSample_runs {c : Cfg} {s : State} (h : InBounds c s) {i : Nat} (hi : i < c.block.toNat) :
    Runs (blockSample i) s (fun _ t => InBounds c t) := by
  refine .bind_ok (loadCell_of_lt (by rw [h.spaceSize]; exact hi)) ((sampleStep_runs h _).bind fun y t ht => ?_)
  exact .of_ok (storeCell_of_lt (by rw [ht.spaceSize]; exact hi)) (ht.poke _ _ _)

/-! ## Analyzer -/

theorem anLoad_runs {c : Cfg} {s : State} (h : InBounds c s) : Runs anLoad s (fun _ t => MemOnly s t) := by
  obtain ⟨u, hu, hsu, -, -⟩ := anLoad_apply h.running h.memWf
  exact .of_ok hu hsu

theorem anRun_runs {c : Cfg} {s : State} (h : InBounds c s) : Runs anRun s (fun _ _ => True) := by
  obtain ⟨b, hb⟩ := h.window
  obtain ⟨m, k, -, ⟨f, hf⟩ | hf⟩ := anRun_cases h.running h.memWf (by rw [h.cfg]; exact hb)
  · exact .of_ok hf trivial
  · exact .of_raised hf

end Sys2Proof.Machine
end

section
/-! SUPPORT. Every command answers a next state in a block whose indexes are in bounds while it runs. -/

namespace Sys2Proof.Machine

/-- The check `u < NV` of the voice commands (44_voice_engine.md R191, R192, R194). -/
theorem requireVoice_runs {β : Type} {c : Cfg} {s : State} (h : InBounds c s) {v : Nat} {f : Unit → M β}
    {R : β → State → Prop} (hf : v < c.nv.toNat → Runs (f ()) s R) : Runs (requireVoice v >>= f) s R := by
  have hrun : requireVoice v s = require (decide (v < s.cfg.nv.toNat)) .errOperand s := rfl
  refine .congr (M.bind_congr_left hrun) (.require fun hv => hf ?_)
  rw [← h.cfg]
  exact of_decide_eq_true hv

/-- RDMEM and WRMEM go on only with a cell that exists (40_system_access.md R107, R108). -/
theorem cellOperand_runs (space : Nat) (index : Word) (s : State) :
    Runs (cellOperand space index) s (fun cell t => t = s ∧ cell.2 < s.spaceSize cell.1) := by
  cases hsp : spaceOf space with
  | none => exact .of_refused (st := .errOperand) (t := s) (by unfold cellOperand; rw [hsp])
  | some sp =>
    by_cases hi : index.toNat < s.spaceSize sp
    · exact .of_ok (a := (sp, index.toNat)) (t := s) (by unfold cellOperand; rw [hsp]; exact if_pos hi) ⟨rfl, hi⟩
    · exact .of_refused (st := .errOperand) (t := s) (by unfold cellOperand; rw [hsp]; exact if_neg hi)

theorem regOperand_runs (a : Nat) (s : State) : Runs (regOperand a) s (fun _ t => t = s) := by
  unfold regOperand
  cases regOf a with
  | none => exact .refuse
  | some r => exact .pure rfl

/-! ## The agent has a step in a running block alone (45_pipeline.md R229, R230) -/

theorem State.running_of_runEnabled {s : State} (h : s.runEnabled = true) : s.running = true := by
  simp only [State.runEnabled, Bool.and_eq_true] at h
  obtain ⟨⟨hr, -⟩, -⟩ := h
  exact hr

theorem State.running_of_takeEnabled {s : State} (h : s.takeEnabled = true) : s.running = true := by
  simp only [State.takeEnabled, Bool.and_eq_true] at h
  obtain ⟨⟨⟨⟨hr, -⟩, -⟩, -⟩, -⟩ := h
  exact hr

section
variable {s : State}

/-! ## System and access -/

theorem execNop_next : ∃ t, execNop s = .next t := command_next fun _ => .pure trivial

theorem execInit_next : ∃ t, execInit s = .next t := by
  refine command_next fun _ => .bind_ok (M.get_apply s) ?_
  cases firstFailing 1 (configChecks s.cfg) with
  | some n => exact .raise
  | none => exact .ite (fun _ => .raise) fun _ => .bind_ok (M.set_apply _ _) (.pure trivial)

theorem execRdreg_next (reg : Nat) : ∃ t, execRdreg reg s = .next t :=
  command_next fun _ => (regOperand_runs reg s).bind fun _ t _ => .bind_ok (M.get_apply t) (.pure trivial)

theorem execWrreg_next (reg : Nat) (data : Word) : ∃ t, execWrreg reg data s = .next t :=
  command_next fun _ => (regOperand_runs reg s).bind fun _ t _ => .bind_ok (M.get_apply t) (.require fun _ =>
    .require fun _ => .require fun _ => .bind_ok (M.set_apply _ _) (.pure trivial))

theorem execRdmem_next (space : Nat) (index : Word) : ∃ t, execRdmem space index s = .next t := by
  refine command_next fun _ => (cellOperand_runs space index s).bind ?_
  rintro ⟨sp, i⟩ _ ⟨rfl, hi⟩
  exact .bind_ok (loadCell_of_lt hi) (.pure trivial)

theorem execWrmem_next (space : Nat) (index data : Word) : ∃ t, execWrmem space index data s = .next t := by
  refine command_next fun _ => (cellOperand_runs space index s).bind ?_
  rintro ⟨sp, i⟩ t ⟨rfl, hi⟩
  exact .bind_ok (M.get_apply t) (.require fun _ => .bind_ok (storeCell_of_lt hi) (.pure trivial))

/-! ## Units -/

variable (hs : s.running = true → InBounds s.cfg s)
include hs

/-- A working command runs only in a running block, so in one that is in bounds. -/
theorem workCommand_next {body : M (List Word)} (h : InBounds s.cfg s → Runs body s (fun _ _ => True)) :
    ∃ t, workCommand body s = .next t := command_next fun hr => h (hs hr)

theorem execAnProc_next (len : Word) : ∃ t, execAnProc len s = .next t := by
  refine workCommand_next hs fun h => .bind_ok (M.get_apply s) (.require fun _ => .ite (fun _ => ?_) fun _ => ?_)
  · exact .of_raised (M.bind_of_error rfl)
  · exact (anLoad_runs h).bind fun _ t ht => (anRun_runs (h.memOnly ht)).bind fun _ _ _ => .pure trivial

theorem execVSetRate_next (v : Nat) (p : Word) : ∃ t, execVSetRate v p s = .next t :=
  workCommand_next hs fun h => requireVoice_runs h fun hv => .require fun _ =>
    (voiceSetRate_runs h hv p).bind fun _ _ _ => .pure trivial

theorem execVSetWave_next (v : Nat) (len : Word) : ∃ t, execVSetWave v len s = .next t :=
  workCommand_next hs fun h => requireVoice_runs h fun hv => .bind_ok (M.get_apply s) (.require fun hlen =>
    (voiceSetWaveform_runs h hv (of_decide_eq_true (Bool.and_eq_true_iff.1 hlen).2)).bind fun _ _ _ => .pure trivial)

theorem execVNext_next (v : Nat) : ∃ t, execVNext v s = .next t :=
  workCommand_next hs fun h => requireVoice_runs h fun hv => (voiceNext_runs h hv).bind fun _ _ _ => .pure trivial

theorem execCtProc_next (x : F32) : ∃ t, execCtProc x s = .next t :=
  workCommand_next hs fun h => .bind_ok (ctProcess_apply h.running h.ctWr) (.pure trivial)

theorem execEngProc_next (x : F32) : ∃ t, execEngProc x s = .next t :=
  workCommand_next hs fun h => (engProcess_runs h x).bind fun _ _ _ => .pure trivial

theorem execPipeSmp_next (x : F32) : ∃ t, execPipeSmp x s = .next t :=
  workCommand_next hs fun h => (sampleStep_runs h x).bind fun _ _ _ => .pure trivial

theorem execPipeBlk_next : ∃ t, execPipeBlk s = .next t := by
  refine workCommand_next hs fun h => .bind_ok (M.modify_apply _ s) (.bind_ok (M.get_apply _) ?_)
  have hloop := Runs.forFrom (P := InBounds s.cfg) (body := blockSample) s.cfg.block.toNat 0
    (fun i t hi ht => blockSample_runs ht (by omega)) (h.setCtrl s.ctrl.polled)
  exact hloop.bind fun _ _ _ => .pure trivial

theorem execFpoll_next : ∃ t, execFpoll s = .next t :=
  workCommand_next hs fun _ => .bind_ok (M.get_apply s)
    (.ite (fun _ => .bind_ok (M.set_apply _ _) (.pure trivial)) fun _ => .pure trivial)

/-! ## All -/

/-- Every command answers a next state. -/
theorem exec_next (i : Instr) : ∃ t, exec i s = .next t := by
  cases i with
  | nop => exact execNop_next
  | init => exact execInit_next
  | rdreg reg => exact execRdreg_next reg
  | wrreg reg data => exact execWrreg_next reg data
  | rdmem space index => exact execRdmem_next space index
  | wrmem space index data => exact execWrmem_next space index data
  | envProc inst x =>
    exact workCommand_next hs fun _ => .require fun _ => .bind_ok (envProcess_apply inst x s) (.pure trivial)
  | lpfProc x => exact workCommand_next hs fun _ => .bind_ok (lpfProcess_apply x s) (.pure trivial)
  | zdProc x => exact workCommand_next hs fun _ => .bind_ok (zdProcess_apply x s) (.pure trivial)
  | cdProc x => exact workCommand_next hs fun _ => .bind_ok (cdProcess_apply x s) (.pure trivial)
  | ctProc x => exact execCtProc_next hs x
  | anProc len => exact execAnProc_next hs len
  | vSetRate v period => exact execVSetRate_next hs v period
  | vSetWave v len => exact execVSetWave_next hs v len
  | vNext v => exact execVNext_next hs v
  | engProc x => exact execEngProc_next hs x
  | pipeSmp x => exact execPipeSmp_next hs x
  | pipeBlk => exact execPipeBlk_next hs
  | ctick c0 c1 c2 c3 => exact workCommand_next hs fun _ => .bind_ok (M.modify_apply _ s) (.pure trivial)
  | fpoll => exact execFpoll_next hs

/-! ## The turns -/

theorem analyzerTurn_next : ∃ t, analyzerTurn s = .next t := by
  unfold analyzerTurn
  split
  case isTrue hrun =>
    have h := hs (State.running_of_runEnabled hrun)
    exact agentOutcome_next ((anRun_runs h).bind fun f t _ => .of_ok (M.modify_apply _ t) trivial)
  case isFalse =>
    split
    case isTrue htake =>
      have h := hs (State.running_of_takeEnabled htake)
      exact agentOutcome_next ((anLoad_runs h).bind fun _ t _ => .of_ok (M.modify_apply _ t) trivial)
    case isFalse => exact ⟨s, rfl⟩

theorem commandTurn_next : ∃ t, commandTurn s = .next t := by
  unfold commandTurn
  cases decode s.port with
  | command i rest => exact exec_next (s := s.setPort rest) (fun hr => { hs hr with }) i
  | illegal why rest => exact ⟨_, rfl⟩
  | incomplete => exact analyzerTurn_next hs

theorem takeTurn_next : ∃ t, takeTurn s = .next t := by
  have hrest : ∀ rest, (s.setSched rest).running = true → InBounds (s.setSched rest).cfg (s.setSched rest) :=
    fun rest hr => { hs hr with }
  unfold takeTurn
  cases s.sched with
  | nil => exact commandTurn_next hs
  | cons turn rest =>
    cases turn with
    | command => exact commandTurn_next (hrest rest)
    | analyzer => exact analyzerTurn_next (hrest rest)
    | reset => exact ⟨_, rfl⟩
    | resetInCommand => exact ⟨_, rfl⟩

end
end Sys2Proof.Machine

open Sys2Proof Sys2Proof.Machine

/-- Settles O60: the invariant gives the bounds, and in bounds every turn answers a next state. -/
theorem stepNeverStops : Obligations.StepNeverStops := by
  intro s hinv
  exact takeTurn_next (InBounds.of_inv hinv)
end

section
/-! SUPPORT. The steps of the analyzer agent, and how soon it has none (45_pipeline.md R229, R230; 00_scope.md R17). -/

namespace Sys2Proof.Machine

/-! ## When a step is enabled -/

theorem State.runEnabled_of_idle {s : State} (h : s.an.busy = false) : s.runEnabled = false := by
  unfold State.runEnabled
  rw [h, Bool.and_false]

theorem State.runEnabled_of_fault {s : State} (h : s.fault ≠ 0) : s.runEnabled = false := by
  unfold State.runEnabled
  rw [beq_false_of_ne h, Bool.and_false, Bool.false_and]

theorem State.takeEnabled_of_empty {s : State} (h : s.wmb.full = false) : s.takeEnabled = false := by
  unfold State.takeEnabled
  rw [h, Bool.and_false, Bool.false_and]

/-- A block that does not run has no agent at work. -/
theorem State.agentIdle_of_stopped {s : State} (h : s.running = false) : s.agentIdle := by
  unfold State.agentIdle State.runEnabled State.takeEnabled
  rw [h]
  exact ⟨rfl, rfl⟩

/-- A fault is recorded after a raise. -/
theorem State.recordFault_fault_ne (s : State) (c : FaultCause) (i : Word) : (s.recordFault c i).fault ≠ 0 := by
  unfold State.recordFault
  split
  · rw [State.setFault_fault]; cases c <;> decide
  · assumption

/-! ## The two steps -/

/-- AN_TAKE empties the slot and makes the analyzer busy (R229). -/
theorem analyzerTurn_take {c : Cfg} {s : State} (h : InBounds c s) (hrun : s.runEnabled = false)
    (htake : s.takeEnabled = true) :
    ∃ u, MemOnly s u ∧ analyzerTurn s
      = .next ((u.setWmb { s.wmb with full := false }).setAn { s.an with busy := true }) := by
  obtain ⟨u, hu, hsu, -, -⟩ := anLoad_apply h.running h.memWf
  refine ⟨u, hsu, ?_⟩
  have hbody : anTake s = .ok ⟨⟩ ((u.setWmb { u.wmb with full := false }).setAn { u.an with busy := true }) :=
    M.bind_of_ok hu
  unfold analyzerTurn agentOutcome
  rw [if_neg (by rw [hrun]; decide), if_pos htake, hbody, hsu.1]
  rfl

/-- AN_RUN ends with the analyzer idle or with a fault recorded, so it is not enabled again (R230); it leaves the
slot, the port and the schedule alone. -/
theorem analyzerTurn_run {c : Cfg} {s : State} (h : InBounds c s) (hrun : s.runEnabled = true) :
    ∃ t, analyzerTurn s = .next t ∧ InBounds c t ∧ t.runEnabled = false ∧ t.wmb = s.wmb ∧ t.port = s.port
      ∧ t.sched = s.sched := by
  obtain ⟨b, hb⟩ := h.window
  obtain ⟨m, k, hm, ⟨f, hf⟩ | hf⟩ := anRun_cases h.running h.memWf (by rw [h.cfg]; exact hb)
  all_goals
    have hu : InBounds c (s.analysed m k) := (h.setMem hm).setAn _
    unfold analyzerTurn agentOutcome
    rw [if_pos hrun]
  · have hbody : anFinish s = .ok ⟨⟩ ((s.analysed m k).published f) := M.bind_of_ok hf
    rw [hbody]
    refine ⟨_, rfl, ?_⟩
    unfold State.published
    split
    · exact ⟨(hu.setFreq _).setAn _, State.runEnabled_of_idle rfl, rfl, rfl, rfl⟩
    · exact ⟨hu.setAn _, State.runEnabled_of_idle rfl, rfl, rfl, rfl⟩
  · have hbody : anFinish s
        = .error .raised ((s.analysed m k).recordFault .analyzerNoConverge (u32 k)) := M.bind_of_error hf
    rw [hbody]
    refine ⟨_, rfl, hu.recordFault _ _, State.runEnabled_of_fault (State.recordFault_fault_ne _ _ _), ?_⟩
    rw [State.recordFault_wmb, State.recordFault_port, State.recordFault_sched]
    exact ⟨rfl, rfl, rfl⟩

/-! ## Coming to rest -/

/-- The run from `s` is over after at most `k` steps (70_reset_and_hazards.md R295). -/
def RestsWithin (k : Nat) (s : State) : Prop := ∃ n t, n ≤ k ∧ Sys2Proof.core.run n s = .next t ∧ t.quiescent

theorem RestsWithin.now {k : Nat} {s : State} (h : s.quiescent) : RestsWithin k s := ⟨0, s, Nat.zero_le k, rfl, h⟩

theorem RestsWithin.after {k : Nat} {s t : State} (hstep : step s = .next t) (h : RestsWithin k t) :
    RestsWithin (k + 1) s := by
  obtain ⟨n, u, hn, hrun, hu⟩ := h
  refine ⟨n + 1, u, Nat.succ_le_succ hn, ?_, hu⟩
  have hcore : Sys2Proof.core.step s = .next t := hstep
  simp only [Host.Core.run, hcore]
  exact hrun

section
variable {c : Cfg} {s : State} (h : InBounds c s) (hp : s.port = []) (hd : s.sched = [])
include h hp hd

/-- With the slot empty the agent has at most the analysis to end. -/
theorem restsWithin_of_empty (hfull : s.wmb.full = false) : RestsWithin 1 s := by
  cases hrun : s.runEnabled with
  | false => exact .now ⟨hp, hrun, State.takeEnabled_of_empty hfull⟩
  | true =>
    obtain ⟨t, ht, -, hidle, hwmb, hport, -⟩ := analyzerTurn_run h hrun
    refine .after ((step_of_empty hp hd).trans ht) (.now ⟨hport.trans hp, hidle, ?_⟩)
    exact State.takeEnabled_of_empty (by rw [hwmb]; exact hfull)

/-- With no analysis to end the agent takes the window in the slot, if there is one, and ends its analysis. -/
theorem restsWithin_of_idle (hrun : s.runEnabled = false) : RestsWithin 2 s := by
  cases htake : s.takeEnabled with
  | false => exact .now ⟨hp, hrun, htake⟩
  | true =>
    obtain ⟨u, hsu, hu⟩ := analyzerTurn_take h hrun htake
    refine .after ((step_of_empty hp hd).trans hu) ?_
    refine restsWithin_of_empty (((h.memOnly hsu).setWmb _).setAn _) ?_ ?_ rfl
    · rw [hsu.1]; exact hp
    · rw [hsu.1]; exact hd

/-- An analysis to end, then a window to take, then its analysis to end. -/
theorem restsWithin_three : RestsWithin 3 s := by
  cases hrun : s.runEnabled with
  | false =>
    obtain ⟨n, t, hn, hrest⟩ := restsWithin_of_idle h hp hd hrun
    exact ⟨n, t, by omega, hrest⟩
  | true =>
    obtain ⟨t, ht, hbounds, hidle, -, hport, hsched⟩ := analyzerTurn_run h hrun
    exact .after ((step_of_empty hp hd).trans ht)
      (restsWithin_of_idle hbounds (hport.trans hp) (hsched.trans hd) hidle)

end
end Sys2Proof.Machine

open Sys2Proof Sys2Proof.Machine

/-- Settles O55: a block that does not run is at rest, and one that runs is so after AN_RUN, AN_TAKE and AN_RUN. -/
theorem agentComesToRest : Obligations.AgentComesToRest := by
  intro s hinv hp hd
  cases hr : s.running with
  | false => exact RestsWithin.now ⟨hp, State.agentIdle_of_stopped hr⟩
  | true => exact restsWithin_three (InBounds.of_inv hinv hr) hp hd
end

section
/-! SUPPORT. A logic for pseudocode that keeps a property of the state: what it leaves where it ends, and where it
stops. -/

namespace Sys2Proof.Machine

variable {α β : Type}

/-- Run from `s`, the pseudocode leaves a state with `P` where it stops, and where it ends normally `Q` holds of its
result and of the state it leaves. -/
structure Leaves (P : State → Prop) (x : M α) (s : State) (Q : α → State → Prop) : Prop where
  post : ∀ {a t}, x s = .ok a t → Q a t
  stop : ∀ {e t}, x s = .error e t → P t

theorem Keeps.leaves {P : State → Prop} {x : M α} {s : State} (h : Keeps P x) (hs : P s) :
    Leaves P x s (fun _ t => P t) :=
  ⟨fun h' => (h s hs).1 _ _ h', fun h' => (h s hs).2 _ _ h'⟩

theorem Keeps.of_leaves {P : State → Prop} {x : M α} (h : ∀ s, P s → Leaves P x s (fun _ t => P t)) : Keeps P x :=
  fun s hs => ⟨fun _ _ h' => (h s hs).post h', fun _ _ h' => (h s hs).stop h'⟩

namespace Leaves
variable {P : State → Prop} {s t : State}

theorem of_ok {x : M α} {a : α} {Q : α → State → Prop} (h : x s = .ok a t) (hq : Q a t) : Leaves P x s Q :=
  ⟨fun h' => by cases h.symm.trans h'; exact hq, fun h' => nomatch h.symm.trans h'⟩

theorem of_error {x : M α} {e : Stop} {Q : α → State → Prop} (h : x s = .error e t) (hp : P t) : Leaves P x s Q :=
  ⟨fun h' => (nomatch h.symm.trans h'), fun h' => by cases h.symm.trans h'; exact hp⟩

theorem congr {x y : M α} {u : State} {Q : α → State → Prop} (h : x s = y u) (hy : Leaves P y u Q) : Leaves P x s Q :=
  ⟨fun h' => hy.post (h ▸ h'), fun h' => hy.stop (h ▸ h')⟩

/-- A weaker property of the stops and a weaker one of the normal end. -/
theorem imp {P' : State → Prop} {x : M α} {Q Q' : α → State → Prop} (h : Leaves P x s Q) (hp : ∀ u, P u → P' u)
    (hq : ∀ a u, Q a u → Q' a u) : Leaves P' x s Q' :=
  ⟨fun h' => hq _ _ (h.post h'), fun h' => hp _ (h.stop h')⟩

/-- Sequencing: the second part is run from every state the first part can end in. -/
theorem bind {x : M α} {f : α → M β} {Q : α → State → Prop} {R : β → State → Prop} (hx : Leaves P x s Q)
    (hf : ∀ a t, Q a t → Leaves P (f a) t R) : Leaves P (x >>= f) s R := by
  constructor
  · intro b u h
    obtain ⟨a, t, hxa, hfa⟩ := M.bind_ok_iff.1 h
    exact (hf a t (hx.post hxa)).post hfa
  · intro e u h
    rcases M.bind_error_iff.1 h with hxe | ⟨a, t, hxa, hfe⟩
    · exact hx.stop hxe
    · exact (hf a t (hx.post hxa)).stop hfe

/-- Sequencing after a part whose end is known. -/
theorem bind_ok {x : M α} {f : α → M β} {a : α} {R : β → State → Prop} (hx : x s = .ok a t)
    (hf : Leaves P (f a) t R) : Leaves P (x >>= f) s R :=
  congr (M.bind_of_ok hx) hf

theorem pure {a : α} {Q : α → State → Prop} (h : Q a s) : Leaves P (Pure.pure a : M α) s Q := of_ok rfl h

theorem raise {c : FaultCause} {i : Word} {Q : α → State → Prop} (h : P (s.recordFault c i)) :
    Leaves P (raiseFault c i : M α) s Q := of_error rfl h

/-- What follows a check may use it. -/
theorem require {b : Bool} {st : Status} {f : Unit → M β} {R : β → State → Prop} (hs : P s)
    (h : b = true → Leaves P (f ()) s R) : Leaves P (require b st >>= f) s R := by
  rcases require_cases b st s with ⟨hb, hr⟩ | ⟨-, hr⟩
  · exact bind_ok hr (h hb)
  · exact of_error (M.bind_of_error hr) hs

theorem ite {c : Prop} [Decidable c] {x y : M α} {Q : α → State → Prop} (hx : c → Leaves P x s Q)
    (hy : ¬ c → Leaves P y s Q) : Leaves P (if c then x else y) s Q := by
  split
  · exact hx ‹_›
  · exact hy ‹_›

end Leaves

/-! ## Pseudocode that keeps any property -/

theorem keeps_regOperand (P : State → Prop) (a : Nat) : Keeps P (regOperand a) := by
  unfold regOperand
  cases regOf a with
  | none => exact keeps_refuse P _
  | some r => exact keeps_pure P r

theorem keeps_cellOperand (P : State → Prop) (space : Nat) (index : Word) : Keeps P (cellOperand space index) := by
  refine .of_leaves fun s hs => ?_
  cases hsp : spaceOf space with
  | none => exact .of_error (e := .refused .errOperand) (by unfold cellOperand; rw [hsp]) hs
  | some sp =>
    by_cases hi : index.toNat < s.spaceSize sp
    · exact .of_ok (a := (sp, index.toNat)) (by unfold cellOperand; rw [hsp]; exact if_pos hi) hs
    · exact .of_error (e := .refused .errOperand) (by unfold cellOperand; rw [hsp]; exact if_neg hi) hs

theorem keeps_requireVoice (P : State → Prop) (v : Nat) : Keeps P (requireVoice v) :=
  keeps_bind (keeps_get P) fun _ => keeps_require P _ _

theorem keeps_ite {P : State → Prop} {c : Prop} [Decidable c] {x y : M α} (hx : c → Keeps P x) (hy : ¬ c → Keeps P y) :
    Keeps P (if c then x else y) := by
  split
  · exact hx ‹_›
  · exact hy ‹_›

end Sys2Proof.Machine
end

section
/-! SUPPORT. The invariant of a running block with a fixed configuration, and the updates that keep it. -/

namespace Sys2Proof.Machine

/-! ## The invariant in a running block -/

/-- A running block with the configuration `c` in which the invariant holds. -/
structure Sound (c : Cfg) (s : State) : Prop where
  cfg : s.cfg = c
  running : s.running = true
  memWf : s.mem.wf = true
  faultCode : s.fault.toNat ≤ 6
  faultInfo : s.fault = 0 → s.faultInfo = 0
  run : RunningInv s

theorem Sound.of_inv {c : Cfg} {s : State} (h : Inv s) (hc : s.cfg = c) (hr : s.running = true) : Sound c s :=
  { cfg := hc, running := hr, memWf := h.memWf, faultCode := h.faultCode, faultInfo := h.faultInfo
    run := h.running hr }

theorem Sound.inv {c : Cfg} {s : State} (h : Sound c s) : Inv s :=
  { memWf := h.memWf, faultCode := h.faultCode, faultInfo := h.faultInfo, running := fun _ => h.run
    stopped := fun hr => absurd (h.running.symm.trans hr) (by decide) }

/-- The tables INIT writes, which nothing else writes (20_memory.md R61). -/
def Space.isTable : Space → Bool
  | .anWin => true | .anTwr => true | .anTwi => true
  | _ => false

/-- The tracker's indexes and the length it measured lie in a ring of `n` cells (10_state.md R27). -/
structure Ct.InRing (n : Nat) (x : Ct) : Prop where
  wr : x.wr.toNat < n
  lastZc : x.lastZc.toNat < n
  cycStart : x.cycStart.toNat < n
  cycEnd : x.cycEnd.toNat < n
  cycLen : x.cycLen.toNat < n

/-! ## Updates in any block -/

theorem FaultCause.code_le (x : FaultCause) : x.code.toNat ≤ 6 := by cases x <;> decide

theorem FaultCause.code_ne_zero (x : FaultCause) : x.code ≠ 0 := by cases x <;> decide

namespace Inv
variable {s : State} (h : Inv s)
include h

theorem setPort (x : List Word) : Inv (s.setPort x) :=
  { h with running := fun hr => { h.running hr with }, stopped := fun hr => { h.stopped hr with } }

theorem setSched (x : List Turn) : Inv (s.setSched x) :=
  { h with running := fun hr => { h.running hr with }, stopped := fun hr => { h.stopped hr with } }

theorem respond (st : Status) (rs : List Word) : Inv (s.respond st rs) :=
  { h with running := fun hr => { h.running hr with }, stopped := fun hr => { h.stopped hr with } }

theorem setCtl (x : Ctl) : Inv (s.setCtl x) :=
  { h with running := fun hr => { h.running hr with }, stopped := fun hr => { h.stopped hr with } }

/-- A fault code of R250 with any information. -/
theorem recordFault (x : FaultCause) (i : Word) : Inv (s.recordFault x i) := by
  unfold State.recordFault
  split
  · exact
      { h with
        faultCode := x.code_le
        faultInfo := fun h0 => absurd h0 x.code_ne_zero
        running := fun hr => { h.running hr with }
        stopped := fun hr => { h.stopped hr with } }
  · exact h

/-- The configuration of a block that does not run is free (10_state.md R40). -/
theorem setCfg (hr : s.running = false) (x : Cfg) : Inv (s.setCfg x) :=
  { h with
    running := fun hr' => absurd (hr.symm.trans hr') (by decide)
    stopped := fun _ => { h.stopped hr with } }

/-- The coefficients are free (R41). -/
theorem setDecay (x : F32) : Inv (s.setLpf { s.lpf with decay := x }) :=
  { h with running := fun hr => { h.running hr with }, stopped := fun hr => { h.stopped hr with } }

theorem setEnv0Rates (x y : F32) : Inv (s.setEnv0 { s.env0 with rise := x, fall := y }) :=
  { h with running := fun hr => { h.running hr with }, stopped := fun hr => { h.stopped hr with } }

theorem setEnv1Rates (x y : F32) : Inv (s.setEnv1 { s.env1 with rise := x, fall := y }) :=
  { h with running := fun hr => { h.running hr with }, stopped := fun hr => { h.stopped hr with } }

end Inv

/-! ## Updates in a running block -/

namespace Sound
variable {c : Cfg} {s : State} (h : Sound c s)
include h

theorem inBounds : InBounds c s := h.cfg ▸ InBounds.of_inv h.inv h.running

theorem ct : s.ct.InRing c.ring.toNat :=
  h.cfg ▸
    { wr := h.run.ctWr, lastZc := h.run.ctLastZc, cycStart := h.run.ctCycStart, cycEnd := h.run.ctCycEnd
      cycLen := h.run.ctCycLen }

theorem setLpf (x : Lpf) : Sound c (s.setLpf x) := { h with run := { h.run with } }
theorem setEnv0 (x : Env) : Sound c (s.setEnv0 x) := { h with run := { h.run with } }
theorem setEnv1 (x : Env) : Sound c (s.setEnv1 x) := { h with run := { h.run with } }
theorem setZdPrev (x : F32) : Sound c (s.setZdPrev x) := { h with run := { h.run with } }
theorem setCd (x : Cd) : Sound c (s.setCd x) := { h with run := { h.run with } }
theorem setCtrl (x : Ctrl) : Sound c (s.setCtrl x) := { h with run := { h.run with } }

theorem setEnv (u : Nat) (x : Env) : Sound c (s.setEnv u x) := by
  unfold State.setEnv
  split
  · exact h.setEnv0 x
  · exact h.setEnv1 x

theorem setCt {x : Ct} (hx : x.InRing c.ring.toNat) : Sound c (s.setCt x) := by
  rw [← h.cfg] at hx
  exact
    { h with
      run :=
        { h.run with
          ctWr := hx.wr, ctLastZc := hx.lastZc, ctCycStart := hx.cycStart, ctCycEnd := hx.cycEnd
          ctCycLen := hx.cycLen } }

theorem setAn {x : An} (hk : x.k.toNat < c.win.toNat / 2) (hp : s.freq.present = true → x.primed = true) :
    Sound c (s.setAn x) := by
  rw [← h.cfg] at hk
  exact { h with run := { h.run with anK := hk, present := hp } }

theorem setFreq {x : Freq} (hp : x.present = true → s.an.primed = true) : Sound c (s.setFreq x) :=
  { h with run := { h.run with present := hp } }

theorem setWmb {x : Wmb} (hf : x.full = true → s.pipe.fill = c.win) : Sound c (s.setWmb x) := by
  rw [← h.cfg] at hf
  exact { h with run := { h.run with full := hf } }

theorem setPipe {x : Pipe} (hhwr : x.hwr.toNat < c.hist.toNat) (hhop : x.hopCnt.toNat < c.hop.toNat)
    (hfill : x.fill.toNat ≤ c.win.toNat) (hfull : s.wmb.full = true → x.fill = c.win) : Sound c (s.setPipe x) := by
  rw [← h.cfg] at hhwr hhop hfill hfull
  exact { h with run := { h.run with hwr := hhwr, hopCnt := hhop, fill := hfill, full := hfull } }

theorem setRr {x : Word} (hx : x.toNat < c.nv.toNat) : Sound c (s.setEng { s.eng with rr := x }) := by
  rw [← h.cfg] at hx
  exact { h with run := { h.run with rr := hx } }

theorem recordFault (x : FaultCause) (i : Word) : Sound c (s.recordFault x i) :=
  .of_inv (h.inv.recordFault x i) (by rw [State.recordFault_cfg, h.cfg]) (by rw [State.recordFault_running, h.running])

theorem voiceInv {v : Nat} (hv : s.hasVoice v = true) : VoiceInv c (s.voice v) := by
  unfold State.hasVoice at hv
  rw [Bool.and_eq_true, decide_eq_true_eq] at hv
  exact h.cfg ▸ h.run.voices v hv.1

theorem setVoice {v : Nat} {x : Voice} (hv : s.hasVoice v = true) (hx : VoiceInv c x) : Sound c (s.setVoice v x) := by
  unfold State.hasVoice at hv
  rw [Bool.and_eq_true, decide_eq_true_eq] at hv
  rw [← h.cfg] at hx
  refine { h with run := { h.run with voices := fun u hu => ?_, others := fun u hu => ?_ } }
  · rw [State.voice_setVoice]
    split
    · exact hx
    · exact h.run.voices u hu
  · have hu' : s.cfg.nv.toNat ≤ u := hu
    rw [State.voice_of_setVoice_ne (by omega)]
    exact h.run.others u hu

/-- A write to a cell that exists and is none of a table's. -/
theorem poke {sp : Space} {i : Nat} (w : Word) (hi : i < s.spaceSize sp) (hsp : sp.isTable = false) :
    Sound c (s.poke sp i w) := by
  have hsame : ∀ sp', sp'.isTable = true → (s.poke sp i w).mem.cells sp' = s.mem.cells sp' := fun sp' ht =>
    Memory.cells_withCells_ne _ _ (by rintro rfl; rw [hsp] at ht; cases ht)
  rw [spaceSize_of_running h.running] at hi
  refine
    { h with
      memWf := State.poke_wf sp i w h.memWf
      run :=
        { h.run with
          below := fun sp' => ?_
          tableWin := (hsame .anWin rfl).trans h.run.tableWin
          tableTwr := (hsame .anTwr rfl).trans h.run.tableTwr
          tableTwi := (hsame .anTwi rfl).trans h.run.tableTwi } }
  rw [State.poke_mem, Memory.cells_withCells]
  split
  case isTrue heq => subst heq; exact setCell_below w hi (h.run.below sp')
  case isFalse => exact h.run.below sp'

end Sound

/-! ## Pseudocode that keeps it -/

theorem keeps_store {c : Cfg} {sp : Space} (hsp : sp.isTable = false) (i : Nat) (w : Word) :
    Keeps (Sound c) (storeCell sp i w) :=
  keeps_storeCell fun _ hi h => h.poke w hi hsp

/-- The bank of a voice that exists is one the invariant speaks of. -/
theorem voiceAt_leaves {c : Cfg} {s : State} (h : Sound c s) (v : Nat) :
    Leaves (Sound c) (voiceAt v) s (fun x t => VoiceInv c x ∧ Sound c t) := by
  rcases voiceAt_cases v s with ⟨hv, hx⟩ | ⟨-, hx⟩
  · exact .of_ok hx ⟨h.voiceInv hv, h⟩
  · exact .of_error hx h

theorem keeps_putVoice_inv {c : Cfg} {x : Voice} (v : Nat) (hx : VoiceInv c x) : Keeps (Sound c) (putVoice v x) :=
  keeps_putVoice fun _ hv h => h.setVoice hv hx

end Sys2Proof.Machine
end

section
/-! SUPPORT. Every unit keeps the invariant of a running block. -/

namespace Sys2Proof.Machine

/-! ## Filters (41_filters.md R120 to R122) -/

theorem envProcess_keeps {c : Cfg} (u : Nat) (x : F32) : Keeps (Sound c) (envProcess u x) :=
  .of_leaves fun s hs => .of_ok (envProcess_apply u x s) (hs.setEnv _ _)

theorem lpfProcess_keeps {c : Cfg} (x : F32) : Keeps (Sound c) (lpfProcess x) :=
  .of_leaves fun s hs => .of_ok (lpfProcess_apply x s) (hs.setLpf _)

theorem zdProcess_keeps {c : Cfg} (x : F32) : Keeps (Sound c) (zdProcess x) :=
  .of_leaves fun s hs => .of_ok (zdProcess_apply x s) (hs.setZdPrev _)

/-! ## Tracker (42_cycle.md R140 to R145) -/

theorem subMod_lt {e s m : Word} (he : e.toNat < m.toNat) (hs : s.toNat < m.toNat) :
    (subMod e s m).toNat < m.toNat := by
  have hm := m.isLt
  unfold subMod
  split
  · rw [BitVec.toNat_sub]; omega
  · rw [BitVec.toNat_add, BitVec.toNat_sub]; omega

namespace Ct.InRing
variable {x : Ct} {cap : Word} (h : x.InRing cap.toNat)
include h

theorem advance {z : Word} (hz : z.toNat < cap.toNat) :
    ({ x with wr := incMod x.wr cap, lastZc := z } : Ct).InRing cap.toNat :=
  { h with wr := incMod_lt _ (by omega), lastZc := hz }

theorem assign : (x.assign cap).InRing cap.toNat :=
  { h with cycStart := h.cycEnd, cycEnd := h.lastZc, cycLen := subMod_lt h.lastZc h.cycEnd }

end Ct.InRing

/-- What a sample makes of the tracker's registers: the write index moves on, a zero crossing is noted, and a start
assigns the cycle (R145). -/
theorem State.track_ct (s : State) (x : F32) : (s.track x).1.ct =
    (let z := if crossesZero x s.zdPrev = true then s.ct.wr else s.ct.lastZc
     let ct : Ct := { s.ct with wr := incMod s.ct.wr s.cfg.ring, lastZc := z }
     if (s.track x).2.fresh = true then ct.assign s.cfg.ring else ct) := by
  unfold State.track
  simp only [State.setCt_ct, State.detect_ct, State.setZdPrev_ct]
  rfl

theorem Ct.InRing.track {s : State} (h : s.ct.InRing s.cfg.ring.toNat) (x : F32) :
    (s.track x).1.ct.InRing s.cfg.ring.toNat := by
  have hz : (if crossesZero x s.zdPrev = true then s.ct.wr else s.ct.lastZc).toNat < s.cfg.ring.toNat := by
    split
    · exact h.wr
    · exact h.lastZc
  rw [State.track_ct]
  simp only
  split
  · exact (h.advance hz).assign
  · exact h.advance hz

theorem Sound.detect {c : Cfg} {s : State} (h : Sound c s) (x : F32) : Sound c (s.detect x).1 := by
  rw [State.detect_frame]
  exact (((h.setLpf _).setEnv0 _).setEnv1 _).setCd _

theorem Sound.track {c : Cfg} {s : State} (h : Sound c s) (x : F32) : Sound c (s.track x).1 := by
  have hcell : s.ct.wr.toNat < s.spaceSize .ring := by rw [h.inBounds.spaceSize]; exact h.ct.wr
  have hring := h.ct
  rw [← h.cfg] at hring
  have hct := hring.track x
  rw [h.cfg] at hct
  rw [State.track_frame, State.track_mem]
  exact ((((((h.poke x hcell rfl).setLpf _).setEnv0 _).setEnv1 _).setCd _).setCt hct).setZdPrev x

theorem cdProcess_keeps {c : Cfg} (x : F32) : Keeps (Sound c) (cdProcess x) :=
  .of_leaves fun s hs => .of_ok (cdProcess_apply x s) (hs.detect x)

theorem ctProcess_keeps {c : Cfg} (x : F32) : Keeps (Sound c) (ctProcess x) :=
  .of_leaves fun _ hs => .of_ok (ctProcess_apply hs.running hs.run.ctWr) (hs.track x)

/-! ## Voices (44_voice_engine.md R190 to R193) -/

namespace VoiceInv
variable {c : Cfg} {v : Voice} (h : VoiceInv c v)
include h

theorem setRate {p : Word} {i : F32} (hp : 1 ≤ p.toNat) (hi : i = incOf p) :
    VoiceInv c { v with period := p, inc := i, rateSet := true } :=
  { h with rate := fun _ => ⟨hp, hi⟩ }

theorem withRate {p : Word} (hp : 1 ≤ p.toNat) : VoiceInv c (v.withRate p) := h.setRate hp rfl

theorem withWave {len : Word} (hlen : 1 ≤ len.toNat ∧ len.toNat ≤ c.wt.toNat) : VoiceInv c (v.withWave len) :=
  { h with swapLen := fun _ => hlen, pending := fun _ => rfl }

theorem setPhase (x : F32) : VoiceInv c { v with phase := x } := { h with }

/-- The queued length is a legal one to play. -/
theorem swap {i : F32} (hp : v.pending = true) (hi : i = incOf v.period) :
    VoiceInv c { v with actLen := v.swapLen, inc := i, act := !v.act, pending := false } :=
  { actLen := h.swapLen (h.pending hp)
    swapLen := h.swapLen
    pending := fun hp' => nomatch hp'
    rate := fun hr => ⟨(h.rate hr).1, hi⟩ }

/-- The commit takes the increment of the stored period (90_conflicts.md C7). -/
theorem commit (hp : v.pending = true) : VoiceInv c v.commit := h.swap hp rfl

theorem advance : VoiceInv c v.advance := by
  unfold Voice.advance
  simp only
  split
  · split
    case isTrue hp => exact (h.setPhase _).commit hp
    case isFalse => exact h.setPhase _
  · exact h.setPhase _

end VoiceInv

theorem voiceSetRate_keeps {c : Cfg} (v : Nat) {p : Word} (hp : 1 ≤ p.toNat) :
    Keeps (Sound c) (voiceSetRate v p) :=
  .of_leaves fun _ hs => (voiceAt_leaves hs v).bind fun _ _ ⟨hx, ht⟩ =>
    (keeps_putVoice_inv v (hx.withRate hp)).leaves ht

theorem voiceSetWaveform_keeps {c : Cfg} (v : Nat) {len : Word} (hlen : 1 ≤ len.toNat ∧ len.toNat ≤ c.wt.toNat) :
    Keeps (Sound c) (voiceSetWaveform v len) :=
  .of_leaves fun _ hs => (voiceAt_leaves hs v).bind fun _ _ ⟨hx, ht⟩ =>
    Keeps.leaves
      (keeps_bind
        (keeps_forFrom (fun _ => keeps_bind (keeps_loadCell _ _ _) fun _ => keeps_bind (keeps_get _) fun _ =>
          keeps_store rfl _ _) _ 0)
        fun _ => keeps_putVoice_inv v (hx.withWave hlen))
      ht

theorem keeps_raise_sound {α : Type} {c : Cfg} (x : FaultCause) (i : Word) :
    Keeps (Sound c) (raiseFault x i : M α) :=
  keeps_raise fun _ h => h.recordFault x i

theorem voiceNext_keeps {c : Cfg} (v : Nat) : Keeps (Sound c) (voiceNext v) := by
  refine .of_leaves fun s hs => (voiceAt_leaves hs v).bind fun x t ⟨hx, ht⟩ => .ite (fun _ => ?_) fun _ => ?_
  · exact .of_error (M.bind_of_error rfl) (ht.recordFault .voiceNotReady (u32 v))
  · cases floorU x.position x.actLen with
    | none => exact (keeps_raise_sound _ _).leaves ht
    | some i =>
      refine Keeps.leaves (keeps_bind (keeps_get _) fun _ => ?_) ht
      refine keeps_bind (keeps_loadCell _ _ _) fun _ => keeps_bind (keeps_loadCell _ _ _) fun _ => ?_
      exact keeps_bind (keeps_putVoice_inv v hx.advance) fun _ => keeps_pure _ _

/-! ## Engine (R196) -/

theorem mixVoices_keeps {c : Cfg} (amp : F32) (n i : Nat) (acc : F32) : Keeps (Sound c) (mixVoices amp n i acc) := by
  induction n generalizing i acc with
  | zero => exact keeps_pure _ acc
  | succ n ih => exact keeps_bind (voiceNext_keeps i) fun y => ih (i + 1) _

theorem Sound.assigned {c : Cfg} {s : State} (h : Sound c s) (y : Cycle) : Sound c (s.assigned y) := by
  have hrr := h.inBounds.rr
  have hv := h.inBounds.hasVoice hrr
  unfold State.assigned
  split
  case isTrue hy =>
    refine (h.setVoice hv ((h.voiceInv hv).withRate (p := y.length) hy.2)).setRr ?_
    rw [h.cfg]
    exact incMod_lt _ (by omega)
  case isFalse => exact h

theorem Sound.tracked {c : Cfg} {s : State} (h : Sound c s) (x : F32) : Sound c (s.tracked x) :=
  (h.track x).assigned _

theorem engProcess_keeps {c : Cfg} (x : F32) : Keeps (Sound c) (engProcess x) :=
  .of_leaves fun s hs =>
    have hb := hs.inBounds
    .congr (engProcess_apply hs.running (by rw [hs.cfg]; exact hb.ctWr) (hb.hasVoice hb.rr))
      ((mixVoices_keeps _ _ _ _).leaves (hs.tracked x))

/-! ## Pipeline (45_pipeline.md R220 to R224) -/

theorem u32_toNat (w : Word) : u32 w.toNat = w := BitVec.ofNat_toNat 32 w

/-- One sample more in the history, the count capped at a window (R221). -/
theorem fillNext_le (fill win : Word) : (u32 (min (fill.toNat + 1) win.toNat)).toNat ≤ win.toNat := by
  have hw := win.isLt
  unfold u32
  rw [BitVec.toNat_ofNat, Nat.mod_eq_of_lt (by omega)]
  omega

theorem fillNext_of_full (win : Word) : u32 (min (win.toNat + 1) win.toNat) = win := by
  rw [Nat.min_eq_right (Nat.le_succ _), u32_toNat]

/-- The history counters after a sample, whatever hop count is left (R220, R221). -/
theorem Sound.recordSample {c : Cfg} {s : State} (h : Sound c s) (x : F32) {hop : Word}
    (hhop : hop.toNat < c.hop.toNat) :
    Sound c ((s.poke .hist s.pipe.hwr.toNat x).setPipe
      { hwr := incMod s.pipe.hwr s.cfg.hist
        fill := u32 (min (s.pipe.fill.toNat + 1) s.cfg.win.toNat)
        hopCnt := hop }) := by
  have hhwr := h.inBounds.hwr
  have hcell : s.pipe.hwr.toNat < s.spaceSize .hist := by rw [h.inBounds.spaceSize]; exact hhwr
  rw [h.cfg]
  refine (h.poke x hcell rfl).setPipe (incMod_lt _ (by omega)) hhop (fillNext_le _ _) fun hfull => ?_
  have hfill : s.pipe.fill = c.win := by rw [h.run.full hfull, h.cfg]
  rw [hfill]
  exact fillNext_of_full c.win

/-- A window goes to the slot only with the history full, and it stays full while the window is copied (R222). -/
theorem publishWindow_keeps {c : Cfg} : Keeps (Sound c) publishWindow := by
  refine .of_leaves fun s hs => .bind_ok (M.get_apply s) (.ite (fun hpub => ?_) fun _ => .pure hs)
  have hfill : s.pipe.fill = c.win := by
    rw [Bool.and_eq_true, beq_iff_eq] at hpub
    rw [hpub.2, hs.cfg]
  have hcopy : Keeps (fun t => Sound c t ∧ t.pipe.fill = c.win)
      (forFrom s.cfg.win.toNat 0 (fun i => do
        let w ← loadCell .hist (histIndex s.pipe.hwr.toNat s.cfg.hist.toNat s.cfg.win.toNat i)
        storeCell .wmb i w)) :=
    keeps_forFrom (fun i => keeps_bind (keeps_loadCell _ _ _) fun w =>
      keeps_storeCell fun t hi ht => ⟨ht.1.poke w hi rfl, ht.2⟩) _ 0
  refine .bind ((hcopy.leaves ⟨hs, hfill⟩).imp (fun _ ht => ht.1) fun _ _ ht => ht) ?_
  exact fun _ t ht => .of_ok (M.modify_apply _ t) (ht.1.setWmb fun _ => ht.2)

/-- The hop counter stays below the hop length: it is cleared when it gets there (R220). -/
theorem sampleStep_keeps {c : Cfg} (x : F32) : Keeps (Sound c) (sampleStep x) := by
  refine .of_leaves fun s hs => ?_
  have hhop : s.pipe.hopCnt.toNat < s.cfg.hop.toNat := hs.run.hopCnt
  have hbelow := s.cfg.hop.isLt
  refine .bind_ok (historyWrite_apply hs.running hs.run.hwr) (.bind_ok (M.get_apply _) ?_)
  refine .ite (fun _ => ?_) fun hne => ?_
  · have hzero := hs.recordSample x (hop := 0) (by rw [← hs.cfg]; exact Nat.zero_lt_of_lt hhop)
    exact .bind_ok (M.set_apply _ _)
      (Keeps.leaves (keeps_bind publishWindow_keeps fun _ => engProcess_keeps x) hzero)
  · refine (engProcess_keeps x).leaves (hs.recordSample x ?_)
    have hne' : s.pipe.hopCnt + 1 ≠ s.cfg.hop := fun h => hne (beq_iff_eq.2 h)
    rw [← hs.cfg]
    bv_omega

theorem blockSample_keeps {c : Cfg} (i : Nat) : Keeps (Sound c) (blockSample i) :=
  keeps_bind (keeps_loadCell _ _ _) fun x => keeps_bind (sampleStep_keeps x) fun _ => keeps_store rfl _ _

/-! ## Analyzer (43_analyzer.md R160 to R167) -/

theorem anLoad_keeps {c : Cfg} : Keeps (Sound c) anLoad :=
  keeps_bind (keeps_get _) fun _ =>
    keeps_forFrom (fun _ => keeps_bind (keeps_loadCell _ _ _) fun _ => keeps_store rfl _ _) _ 0

theorem anWindow_keeps {c : Cfg} : Keeps (Sound c) anWindow :=
  keeps_bind (keeps_get _) fun _ => keeps_forFrom (fun _ => keeps_bind (keeps_loadCell _ _ _) fun _ =>
    keeps_bind (keeps_loadCell _ _ _) fun _ => keeps_bind (keeps_store rfl _ _) fun _ => keeps_store rfl _ _) _ 0

theorem swapCells_keeps {c : Cfg} {sp : Space} (hsp : sp.isTable = false) (i j : Nat) :
    Keeps (Sound c) (swapCells sp i j) :=
  keeps_bind (keeps_loadCell _ _ _) fun _ => keeps_bind (keeps_loadCell _ _ _) fun _ =>
    keeps_bind (keeps_store hsp _ _) fun _ => keeps_store hsp _ _

theorem anPermute_keeps {c : Cfg} (n bits : Nat) : Keeps (Sound c) (anPermute n bits) :=
  keeps_forFrom (fun _ => keeps_ite (fun _ => keeps_bind (swapCells_keeps rfl _ _) fun _ => swapCells_keeps rfl _ _)
    fun _ => keeps_pure _ _) _ 0

theorem butterfly_keeps {c : Cfg} (a b t : Nat) : Keeps (Sound c) (butterfly a b t) := by
  refine keeps_bind (keeps_loadCell _ _ _) fun _ => keeps_bind (keeps_loadCell _ _ _) fun _ => ?_
  refine keeps_bind (keeps_loadCell _ _ _) fun _ => keeps_bind (keeps_loadCell _ _ _) fun _ => ?_
  refine keeps_bind (keeps_loadCell _ _ _) fun _ => keeps_bind (keeps_loadCell _ _ _) fun _ => ?_
  refine keeps_bind (keeps_store rfl _ _) fun _ => keeps_bind (keeps_store rfl _ _) fun _ => ?_
  exact keeps_bind (keeps_store rfl _ _) fun _ => keeps_store rfl _ _

theorem anFft_keeps {c : Cfg} : Keeps (Sound c) anFft :=
  keeps_bind (keeps_get _) fun _ => keeps_bind (anPermute_keeps _ _) fun _ =>
    keeps_forFrom (fun _ => keeps_forFrom (fun _ => keeps_forFrom (fun _ => butterfly_keeps _ _ _) _ 0) _ 0) _ 1

/-- The peak is a bin of the lower half, so its register stays in range (R163). -/
theorem anPeak_keeps {c : Cfg} : Keeps (Sound c) anPeak := by
  refine .of_leaves fun s hs => .bind_ok (M.get_apply s) ?_
  obtain ⟨b, hb⟩ := hs.inBounds.window
  have hwin : 2 ≤ s.cfg.win.toNat := by rw [hs.cfg, hb, Nat.pow_succ]; have := Nat.two_pow_pos b; omega
  obtain ⟨k, hk, hsearch⟩ := peakSearch_lt hs.running (m := s.cfg.win.toNat / 2) (by omega)
    (s.cfg.win.toNat / 2 - 1) 1 0 (s.binMag 0) (by omega) (by omega)
  refine .bind_ok (binMagnitude_apply hs.running (by omega)) (.bind_ok hsearch ?_)
  have hreg : (u32 k).toNat < c.win.toNat / 2 := by
    have hw := s.cfg.win.isLt
    unfold u32
    rw [BitVec.toNat_ofNat, Nat.mod_eq_of_lt (by omega), ← hs.cfg]
    exact hk
  refine Keeps.leaves (keeps_bind (keeps_loadCell _ _ _) fun _ => keeps_bind ?_ fun _ => ?_) hs
  · exact keeps_forFrom (fun _ => keeps_bind (keeps_loadCell _ _ _) fun _ => keeps_bind (keeps_loadCell _ _ _) fun _ =>
      keeps_store rfl _ _) _ 0
  · exact keeps_bind (keeps_modify fun t ht => ht.setAn hreg ht.run.present) fun _ =>
      keeps_bind (keeps_loadCell _ _ _) fun _ => keeps_pure _ _

theorem anCoarse_keeps {c : Cfg} (k : Nat) : Keeps (Sound c) (anCoarse k) :=
  .of_leaves fun s hs => .of_ok rfl (hs.setAn (by rw [← hs.cfg]; exact hs.run.anK) hs.run.present)

theorem anRefine_keeps {c : Cfg} (pk : Peak) (fEst : F32) : Keeps (Sound c) (anRefine pk fEst) := by
  refine .of_leaves fun s hs => ?_
  cases h : refined s.cfg pk fEst with
  | some f => exact .of_ok (anRefine_of_some h) hs
  | none => exact .of_error (anRefine_of_none h) (hs.recordFault _ _)

theorem anRun_keeps {c : Cfg} : Keeps (Sound c) anRun :=
  keeps_bind anWindow_keeps fun _ => keeps_bind anFft_keeps fun _ => keeps_bind anPeak_keeps fun _ =>
    keeps_bind (anCoarse_keeps _) fun _ => anRefine_keeps _ _

/-- An estimate is published only after the first analysis (45_pipeline.md R230). -/
theorem Sound.published {c : Cfg} {s : State} (h : Sound c s) (f : F32) : Sound c (s.published f) := by
  have hk : s.an.k.toNat < c.win.toNat / 2 := by rw [← h.cfg]; exact h.run.anK
  unfold State.published
  split
  case isTrue hprimed => exact (h.setFreq (x := ⟨f, true⟩) fun _ => hprimed).setAn hk fun _ => hprimed
  case isFalse => exact h.setAn hk fun _ => rfl

theorem anTake_keeps {c : Cfg} : Keeps (Sound c) anTake :=
  keeps_bind anLoad_keeps fun _ => keeps_modify fun t ht =>
    (ht.setWmb (x := { t.wmb with full := false }) fun hf => nomatch hf).setAn
      (by rw [← ht.cfg]; exact ht.run.anK) ht.run.present

theorem anFinish_keeps {c : Cfg} : Keeps (Sound c) anFinish :=
  keeps_bind anRun_keeps fun f => keeps_modify fun _ ht => ht.published f

end Sys2Proof.Machine
end

section
/-! SUPPORT. Every command and every turn keeps the invariant. -/

namespace Sys2Proof.Machine

/-! ## Commands and agent steps (00_scope.md R14) -/

/-- A command keeps the invariant when its own pseudocode does in the states that admission lets through: a refusal
leaves the state as it was. -/
theorem command_inv {lock : Bool} {need : RunNeed} {body : M (List Word)} {s t : State} (hs : Inv s)
    (hbody : need.met s.running = true → Leaves Inv body s (fun _ u => Inv u))
    (h : command lock need body s = .next t) : Inv t := by
  have hleaves : Leaves Inv (do admission lock need; body) s (fun _ u => Inv u) := by
    rcases admit_cases lock need s with ⟨-, ha⟩ | ⟨-, -, ha⟩ | ⟨-, hmet, ha⟩
    · exact .of_error (M.bind_of_error ha) hs
    · exact .of_error (M.bind_of_error ha) hs
    · exact .bind_ok ha (hbody hmet)
  rcases outcomeOf_cases (do admission lock need; body) s with
    ⟨_, u, hu, ho⟩ | ⟨u, hu, ho⟩ | ⟨_, _, -, ho⟩ | ⟨_, _, -, ho⟩
  all_goals
    rw [command, ho] at h
    cases h
  case inl => exact (hleaves.post hu).respond _ _
  case inr.inl => exact (hleaves.stop hu).respond _ _
  case inr.inr.inl => exact hs.respond _ _

/-- Pseudocode that keeps what holds of a running block keeps the invariant. -/
theorem Keeps.leaves_inv {α : Type} {x : M α} {s : State} (hx : Keeps (Sound s.cfg) x) (hs : Inv s)
    (hr : s.running = true) : Leaves Inv x s (fun _ t => Inv t) :=
  (hx.leaves (.of_inv hs rfl hr)).imp (fun _ h => h.inv) fun _ _ h => h.inv

theorem runningCommand_inv {lock : Bool} {body : M (List Word)} {s t : State} (hs : Inv s)
    (hbody : Keeps (Sound s.cfg) body) (h : command lock .running body s = .next t) : Inv t :=
  command_inv (need := .running) hs (fun hr => hbody.leaves_inv hs hr) h

theorem agentOutcome_inv {body : M Unit} {s t : State} (hs : Inv s) (hr : s.running = true)
    (hbody : Keeps (Sound s.cfg) body) (h : agentOutcome body s = .next t) : Inv t := by
  have hleaves := hbody.leaves_inv hs hr
  unfold agentOutcome at h
  cases hb : body s with
  | ok a u => rw [hb] at h; cases h; exact hleaves.post hb
  | error e u =>
    rw [hb] at h
    cases e with
    | raised => cases h; exact hleaves.stop hb
    | refused st => cases h; exact hs
    | fault f => cases h

/-! ## Reset (70_reset_and_hazards.md R281) -/

/-- Reset leaves the invariant, whatever the state was. -/
theorem deviceReset_inv (s : State) : Inv s.deviceReset :=
  { memWf := Memory.empty_wf
    faultCode := Nat.zero_le _
    faultInfo := fun _ => rfl
    running := fun hr => nomatch hr
    stopped := fun _ =>
      { mem := rfl, lpf := ⟨rfl, rfl⟩, env0 := rfl, env1 := rfl, zdPrev := rfl, cd := rfl, ct := rfl, an := rfl
        voices := rfl, eng := rfl, pipe := rfl, wmb := rfl, freq := rfl, ctrl := rfl } }

/-! ## INIT (40_system_access.md R101 to R104) -/

theorem valid_of_firstFailing {c : Cfg} (h : firstFailing 1 (configChecks c) = none) : c.valid = true := by
  have hall : ∀ (bs : List Bool) n, firstFailing n bs = none → bs.all id = true := by
    intro bs
    induction bs with
    | nil => exact fun _ _ => rfl
    | cons b bs ih =>
      intro n hn
      cases b with
      | false => cases hn
      | true => exact ih (n + 1) hn
  exact hall _ 1 h

/-- The sizes a valid configuration asks for are positive (R102). -/
theorem Cfg.pos_of_valid {c : Cfg} (h : c.valid = true) :
    2 ≤ c.win.toNat ∧ 1 ≤ c.hop.toNat ∧ 1 ≤ c.nv.toNat ∧ 1 ≤ c.ring.toNat ∧ 1 ≤ c.hist.toNat ∧ 1 ≤ c.wt.toNat := by
  simp only [Cfg.valid, configChecks, sizeOk, List.all_cons, id, Bool.and_eq_true, decide_eq_true_eq] at h
  obtain ⟨-, -, ⟨⟨-, hwin⟩, -⟩, ⟨hhop, -⟩, ⟨hnv, -⟩, ⟨hring, -⟩, ⟨hhist, -⟩, ⟨hwt, -⟩, -⟩ := h
  exact ⟨hwin, hhop, hnv, hring, hhist, hwt⟩

theorem cellsBelow_tableCells (f : Nat → Word) (n : Nat) : cellsBelow n (tableCells f n 0) = true := by
  simp only [cellsBelow, List.all_eq_true, decide_eq_true_eq]
  intro e he
  have hbounds := tableCells_bounds f n 0 e he
  omega

theorem initialMemory_below (c : Cfg) (sp : Space) :
    cellsBelow (c.spaceSize sp) ((initialMemory c.win.toNat).cells sp) = true := by
  cases sp with
  | anWin => exact cellsBelow_tableCells _ _
  | anTwr => exact cellsBelow_tableCells _ _
  | anTwi => exact cellsBelow_tableCells _ _
  | ring | hist | wmb | anRe | anIm | anPhase | wstage | inBuf | outBuf | vbuf => rfl

/-- What INIT creates, with the mix amplitude left open: no fact about the other registers needs the division that gives
it. -/
def State.created (s : State) (amp : F32) : State :=
  (((s.setMem (initialMemory s.cfg.win.toNat)).setVoices (initialVoices s.cfg s.voices)).setEng
    { s.eng with amp := amp }).setRunning true

theorem State.initialised_eq_created (s : State) : s.initialised = s.created (fdiv fOne (u2f s.cfg.nv)) := rfl

/-- The bank of every voice after INIT (R104). -/
theorem State.voice_created {s : State} {amp : F32} (h : s.voices = State.reset.voices) (v : Nat) :
    (s.created amp).voice v
      = if v < 256 ∧ v < s.cfg.nv.toNat then { Voice.reset with actLen := s.cfg.wt } else Voice.reset := by
  have hvoices : (s.created amp).voices = initialVoices s.cfg (Vector.replicate 256 Voice.reset) :=
    congrArg (initialVoices s.cfg) h
  unfold State.voice
  rw [hvoices]
  unfold initialVoices
  by_cases hv : v < 256
  · by_cases hnv : v < s.cfg.nv.toNat <;> simp [hv, hnv]
  · simp [hv]

theorem VoiceInv.initial {c : Cfg} (h : 1 ≤ c.wt.toNat) : VoiceInv c { Voice.reset with actLen := c.wt } :=
  { actLen := ⟨h, Nat.le_refl _⟩
    swapLen := fun hw => nomatch hw
    pending := fun hp => nomatch hp
    rate := fun hr => nomatch hr }

/-- A valid configuration that fits, with the memories INIT creates, has the invariant of a running block (R104). -/
theorem StoppedInv.created {s : State} {amp : F32} (h : StoppedInv s) (hv : s.cfg.valid = true)
    (hfits : s.cfg.total ≤ s.arenaCap) (hamp : amp = fdiv fOne (u2f s.cfg.nv)) : RunningInv (s.created amp) := by
  obtain ⟨hwin, hhop, hnv, hring, hhist, hwt⟩ := Cfg.pos_of_valid hv
  have hnvle := nv_le_of_valid hv
  have hct : (s.created amp).ct = State.reset.ct := h.ct
  have hpipe : (s.created amp).pipe = State.reset.pipe := h.pipe
  have hrr : (s.created amp).eng.rr = 0 := congrArg Eng.rr h.eng
  have hk : (s.created amp).an.k = 0 := congrArg An.k h.an
  have hwmb : (s.created amp).wmb.full = false := congrArg Wmb.full h.wmb
  have hfreq : (s.created amp).freq.present = false := congrArg Freq.present h.freq
  exact
    { valid := hv
      fits := hfits
      below := initialMemory_below s.cfg
      tableWin := rfl
      tableTwr := rfl
      tableTwi := rfl
      ctWr := by rw [hct]; exact hring
      ctLastZc := by rw [hct]; exact hring
      ctCycStart := by rw [hct]; exact hring
      ctCycEnd := by rw [hct]; exact hring
      ctCycLen := by rw [hct]; exact hring
      hwr := by rw [hpipe]; exact hhist
      hopCnt := by rw [hpipe]; exact hhop
      fill := by rw [hpipe]; exact Nat.zero_le _
      rr := by rw [hrr]; exact hnv
      amp := hamp
      anK := by rw [hk]; exact Nat.div_pos hwin (by decide)
      full := fun hf => by rw [hwmb] at hf; cases hf
      present := fun hp => by rw [hfreq] at hp; cases hp
      voices := fun v hlt => by
        have hlt' : v < s.cfg.nv.toNat := hlt
        rw [State.voice_created h.voices, if_pos ⟨by omega, hlt'⟩]
        exact .initial hwt
      others := fun v hle => by
        have hle' : s.cfg.nv.toNat ≤ v := hle
        rw [State.voice_created h.voices, if_neg (by omega)] }

theorem Inv.initialised {s : State} (h : Inv s) (hr : s.running = false) (hv : s.cfg.valid = true)
    (hfits : s.cfg.total ≤ s.arenaCap) : Inv s.initialised := by
  rw [State.initialised_eq_created]
  exact
    { memWf := initialCells_wf _ _ _ _ _
      faultCode := h.faultCode
      faultInfo := h.faultInfo
      stopped := fun hr' => nomatch hr'
      running := fun _ => (h.stopped hr).created hv hfits rfl }

theorem execInit_inv {s t : State} (hs : Inv s) (h : execInit s = .next t) : Inv t := by
  refine command_inv hs (fun hmet => .bind_ok (M.get_apply s) ?_) h
  have hr : s.running = false := by simpa [RunNeed.met] using hmet
  cases hchecks : firstFailing 1 (configChecks s.cfg) with
  | some n => exact .raise (hs.recordFault _ _)
  | none =>
    refine .ite (fun _ => .raise (hs.recordFault _ _)) fun hfits => .bind_ok (M.set_apply _ _) (.pure ?_)
    exact hs.initialised hr (valid_of_firstFailing hchecks) (Nat.le_of_not_lt hfits)

/-! ## NOP and access (40_system_access.md R105 to R108) -/

/-- A writable register takes any word; a locked one is written in a block that does not run alone (R106). -/
theorem Inv.putReg {s : State} (h : Inv s) {r : Reg} (hlock : r.access = .rwLock → s.running = false) (w : Word) :
    Inv (s.putReg r w) := by
  cases r with
  | cfgFs | cfgBlock | cfgWin | cfgHop | cfgNv | cfgRing | cfgHist | cfgWt => exact h.setCfg (hlock rfl) _
  | lpfDecay => exact h.setDecay w
  | env0Rise => exact h.setEnv0Rates w s.env0.fall
  | env0Fall => exact h.setEnv0Rates s.env0.rise w
  | env1Rise => exact h.setEnv1Rates w s.env1.fall
  | env1Fall => exact h.setEnv1Rates s.env1.rise w
  | ctl => exact h.setCtl _
  | _ => exact h

theorem execWrreg_inv {reg : Nat} {data : Word} {s t : State} (hs : Inv s) (h : execWrreg reg data s = .next t) :
    Inv t := by
  refine command_inv hs (fun _ => ((keeps_regOperand Inv reg).leaves hs).bind fun r u hu => ?_) h
  refine .bind_ok (M.get_apply u) (.require hu fun _ => .require hu fun hlock => .require hu fun _ => ?_)
  refine .bind_ok (M.set_apply _ _) (.pure (hu.putReg (fun hacc => ?_) data))
  rw [hacc] at hlock
  simpa using hlock

theorem execNop_inv {s t : State} (hs : Inv s) (h : execNop s = .next t) : Inv t :=
  command_inv hs (fun _ => .pure hs) h

theorem execRdreg_inv {reg : Nat} {s t : State} (hs : Inv s) (h : execRdreg reg s = .next t) : Inv t :=
  command_inv hs
    (fun _ => Keeps.leaves (keeps_bind (keeps_regOperand Inv reg) fun _ => keeps_bind (keeps_get _) fun _ =>
      keeps_pure _ _) hs) h

/-- The host writes no table (R108). -/
theorem Space.isTable_of_hostWrites {c : Ctl} {sp : Space} (h : c.hostWrites sp = true) : sp.isTable = false := by
  cases sp with
  | anWin | anTwr | anTwi => cases h
  | _ => rfl

theorem execRdmem_inv {space : Nat} {index : Word} {s t : State} (hs : Inv s)
    (h : execRdmem space index s = .next t) : Inv t :=
  runningCommand_inv hs (keeps_bind (keeps_cellOperand _ _ _) fun _ => keeps_bind (keeps_loadCell _ _ _) fun _ =>
    keeps_pure _ _) h

theorem execWrmem_inv {space : Nat} {index data : Word} {s t : State} (hs : Inv s)
    (h : execWrmem space index data s = .next t) : Inv t := by
  refine runningCommand_inv hs (keeps_bind (keeps_cellOperand _ _ _) fun cell => .of_leaves fun u hu => ?_) h
  refine .bind_ok (M.get_apply u) (.require hu fun hw => ?_)
  exact Keeps.leaves (keeps_bind (keeps_store (Space.isTable_of_hostWrites hw) _ _) fun _ => keeps_pure _ _) hu

/-! ## Units -/

section
variable {s t : State} (hs : Inv s)
include hs

theorem execEnvProc_inv {inst : Nat} {x : F32} (h : execEnvProc inst x s = .next t) : Inv t :=
  runningCommand_inv hs (keeps_bind (keeps_require _ _ _) fun _ => keeps_bind (envProcess_keeps inst x) fun _ =>
    keeps_pure _ _) h

theorem execLpfProc_inv {x : F32} (h : execLpfProc x s = .next t) : Inv t :=
  runningCommand_inv hs (keeps_bind (lpfProcess_keeps x) fun _ => keeps_pure _ _) h

theorem execZdProc_inv {x : F32} (h : execZdProc x s = .next t) : Inv t :=
  runningCommand_inv hs (keeps_bind (zdProcess_keeps x) fun _ => keeps_pure _ _) h

theorem execCdProc_inv {x : F32} (h : execCdProc x s = .next t) : Inv t :=
  runningCommand_inv hs (keeps_bind (cdProcess_keeps x) fun _ => keeps_pure _ _) h

theorem execCtProc_inv {x : F32} (h : execCtProc x s = .next t) : Inv t :=
  runningCommand_inv hs (keeps_bind (ctProcess_keeps x) fun _ => keeps_pure _ _) h

theorem execAnProc_inv {len : Word} (h : execAnProc len s = .next t) : Inv t := by
  refine runningCommand_inv hs (.of_leaves fun u hu => .bind_ok (M.get_apply u) (.require hu fun _ => ?_)) h
  refine .ite (fun _ => .of_error (M.bind_of_error rfl) (hu.recordFault .windowLength len)) fun _ => ?_
  exact Keeps.leaves (keeps_bind anLoad_keeps fun _ => keeps_bind anRun_keeps fun _ => keeps_pure _ _) hu

theorem execVSetRate_inv {v : Nat} {p : Word} (h : execVSetRate v p s = .next t) : Inv t := by
  refine runningCommand_inv hs (keeps_bind (keeps_requireVoice _ v) fun _ => .of_leaves fun u hu => ?_) h
  refine .require hu fun hp => Keeps.leaves (keeps_bind (voiceSetRate_keeps v ?_) fun _ => keeps_pure _ _) hu
  exact of_decide_eq_true hp

theorem execVSetWave_inv {v : Nat} {len : Word} (h : execVSetWave v len s = .next t) : Inv t := by
  refine runningCommand_inv hs (keeps_bind (keeps_requireVoice _ v) fun _ => .of_leaves fun u hu => ?_) h
  refine .bind_ok (M.get_apply u) (.require hu fun hlen => ?_)
  rw [Bool.and_eq_true, decide_eq_true_eq, decide_eq_true_eq, hu.cfg] at hlen
  exact Keeps.leaves (keeps_bind (voiceSetWaveform_keeps v hlen) fun _ => keeps_pure _ _) hu

theorem execVNext_inv {v : Nat} (h : execVNext v s = .next t) : Inv t :=
  runningCommand_inv hs (keeps_bind (keeps_requireVoice _ v) fun _ => keeps_bind (voiceNext_keeps v) fun _ =>
    keeps_pure _ _) h

theorem execEngProc_inv {x : F32} (h : execEngProc x s = .next t) : Inv t :=
  runningCommand_inv hs (keeps_bind (engProcess_keeps x) fun _ => keeps_pure _ _) h

theorem execPipeSmp_inv {x : F32} (h : execPipeSmp x s = .next t) : Inv t :=
  runningCommand_inv hs (keeps_bind (sampleStep_keeps x) fun _ => keeps_pure _ _) h

theorem execPipeBlk_inv (h : execPipeBlk s = .next t) : Inv t :=
  runningCommand_inv hs (keeps_bind (keeps_modify fun u hu => hu.setCtrl u.ctrl.polled) fun _ =>
    keeps_bind (keeps_get _) fun _ => keeps_bind (keeps_forFrom blockSample_keeps _ 0) fun _ => keeps_pure _ _) h

theorem execCtick_inv {c0 c1 c2 c3 : F32} (h : execCtick c0 c1 c2 c3 s = .next t) : Inv t :=
  runningCommand_inv hs (keeps_bind (keeps_modify fun _ hu => hu.setCtrl _) fun _ => keeps_pure _ _) h

theorem execFpoll_inv (h : execFpoll s = .next t) : Inv t := by
  refine runningCommand_inv hs (.of_leaves fun u hu => .bind_ok (M.get_apply u) (.ite (fun _ => ?_) fun _ => ?_)) h
  · exact .bind_ok (M.set_apply _ _) (.pure (hu.setFreq fun hp => nomatch hp))
  · exact .pure hu

/-! ## All -/

theorem exec_inv {i : Instr} (h : exec i s = .next t) : Inv t := by
  cases i with
  | nop => exact execNop_inv hs h
  | init => exact execInit_inv hs h
  | rdreg reg => exact execRdreg_inv hs h
  | wrreg reg data => exact execWrreg_inv hs h
  | rdmem space index => exact execRdmem_inv hs h
  | wrmem space index data => exact execWrmem_inv hs h
  | envProc inst x => exact execEnvProc_inv hs h
  | lpfProc x => exact execLpfProc_inv hs h
  | zdProc x => exact execZdProc_inv hs h
  | cdProc x => exact execCdProc_inv hs h
  | ctProc x => exact execCtProc_inv hs h
  | anProc len => exact execAnProc_inv hs h
  | vSetRate v period => exact execVSetRate_inv hs h
  | vSetWave v len => exact execVSetWave_inv hs h
  | vNext v => exact execVNext_inv hs h
  | engProc x => exact execEngProc_inv hs h
  | pipeSmp x => exact execPipeSmp_inv hs h
  | pipeBlk => exact execPipeBlk_inv hs h
  | ctick c0 c1 c2 c3 => exact execCtick_inv hs h
  | fpoll => exact execFpoll_inv hs h

/-! ## The turns -/

theorem analyzerTurn_inv (h : analyzerTurn s = .next t) : Inv t := by
  unfold analyzerTurn at h
  split at h
  case isTrue hrun => exact agentOutcome_inv hs (State.running_of_runEnabled hrun) anFinish_keeps h
  case isFalse =>
    split at h
    case isTrue htake => exact agentOutcome_inv hs (State.running_of_takeEnabled htake) anTake_keeps h
    case isFalse => cases h; exact hs

theorem commandTurn_inv (h : commandTurn s = .next t) : Inv t := by
  unfold commandTurn at h
  cases hdec : decode s.port with
  | command i rest => rw [hdec] at h; exact exec_inv (hs.setPort rest) h
  | illegal why rest => rw [hdec] at h; cases h; exact (hs.setPort rest).respond _ _
  | incomplete => rw [hdec] at h; exact analyzerTurn_inv hs h

theorem takeTurn_inv (h : takeTurn s = .next t) : Inv t := by
  unfold takeTurn at h
  cases hsched : s.sched with
  | nil => rw [hsched] at h; exact commandTurn_inv hs h
  | cons turn rest =>
    rw [hsched] at h
    cases turn with
    | command => exact commandTurn_inv (hs.setSched rest) h
    | analyzer => exact analyzerTurn_inv (hs.setSched rest) h
    | reset => cases h; exact deviceReset_inv _
    | resetInCommand => cases h; exact deviceReset_inv _

end
end Sys2Proof.Machine

open Sys2Proof Sys2Proof.Machine

/-- Settles O59: whoever moves, the turn keeps the invariant. -/
theorem stepKeepsInvariant : Obligations.StepKeepsInvariant := by
  intro s t hinv hstep
  exact takeTurn_inv hinv hstep

/-- Settles O58: the reset state is what reset makes of itself. -/
theorem resetHasInvariant : Obligations.ResetHasInvariant := by
  exact deviceReset_inv State.reset
end

section
/-! SUPPORT. The register map and the words in which flags are read (spec/10_state.md R40 to R48). -/

namespace Sys2Proof.Machine

/-! ## The mapped addresses (R48) -/

theorem voiceRegOf_isSome_iff (j : Nat) : (voiceRegOf j).isSome = true ↔ j ≤ 5 := by
  rcases j with _ | _ | _ | _ | _ | _ | j <;> simp [voiceRegOf]

/-- Outside the voice banks the mapped addresses are those listed. -/
theorem regOf_isSome_of_fixed {a : Nat} (h : ¬ (0x1000 ≤ a ∧ a < 0x1800)) :
    (regOf a).isSome = true ↔ a ∈ fixedRegs.map Prod.fst := by
  unfold regOf
  rw [if_neg h, Option.isSome_map, List.find?_isSome, List.mem_map]
  simp only [beq_iff_eq]

/-- In a voice bank six of eight addresses are mapped (R47). -/
theorem regOf_isSome_of_voice {a : Nat} (h : 0x1000 ≤ a ∧ a < 0x1800) :
    (regOf a).isSome = true ↔ ∃ v j, v < 256 ∧ j ≤ 5 ∧ a = 0x1000 + 8 * v + j := by
  unfold regOf
  rw [if_pos h, Option.isSome_map, voiceRegOf_isSome_iff]
  constructor
  · intro hj
    exact ⟨(a - 0x1000) / 8, (a - 0x1000) % 8, by omega, hj, by omega⟩
  · rintro ⟨v, j, hv, hj, rfl⟩
    omega

theorem mem_fixedRegs_iff (a : Nat) : a ∈ fixedRegs.map Prod.fst ↔
    a ≤ 0x0007 ∨ (0x0010 ≤ a ∧ a ≤ 0x0015) ∨ (0x0020 ≤ a ∧ a ≤ 0x0024) ∨ (0x0028 ≤ a ∧ a ≤ 0x002F)
    ∨ a = 0x0100 ∨ a = 0x0101 ∨ a = 0x0104 ∨ a = 0x0105 ∨ a = 0x0108
    ∨ (0x0110 ≤ a ∧ a ≤ 0x0112) ∨ (0x0118 ≤ a ∧ a ≤ 0x011C) ∨ a = 0x0120 ∨ a = 0x0121
    ∨ (0x0128 ≤ a ∧ a ≤ 0x012A) ∨ a = 0x0130 ∨ a = 0x0131 := by
  simp only [fixedRegs, List.cons_append, List.nil_append, List.map_cons, List.map_nil, List.mem_cons, List.not_mem_nil,
    or_false]
  omega

/-- An unmapped address is refused (R48). -/
theorem regOperand_unmapped {a : Nat} (h : regOf a = none) (s : State) :
    regOperand a s = .error (.refused .errOperand) s := by
  unfold regOperand
  rw [h]
  rfl

theorem command_of_unmapped {lock : Bool} {a : Nat} {f : Reg → M (List Word)} {s : State}
    (hlock : (lock || s.fault == 0) = true) (h : regOf a = none) :
    command lock .either (regOperand a >>= f) s = .next (s.respond .errOperand []) := by
  rw [command_of_admitted hlock rfl]
  unfold outcomeOf
  rw [M.bind_of_error (regOperand_unmapped h s)]

/-! ## Words of flags (R42, R43, R46, R47) -/

/-- The number whose bits are those of a list, bit 0 first. -/
def packFlags : List Bool → Nat
  | [] => 0
  | b :: bs => Nat.bit b (packFlags bs)

theorem testBit_packFlags (bs : List Bool) (j : Nat) : (packFlags bs).testBit j = bs.getD j false := by
  induction bs generalizing j with
  | nil => simp [packFlags]
  | cons b bs ih =>
    cases j with
    | zero => simp [packFlags]
    | succ j => simp [packFlags, Nat.testBit_bit_succ, ih]

/-- The bits of a word of flags; none beyond the list is set. -/
theorem getLsbD_packFlags {bs : List Bool} (h : bs.length ≤ 32) (j : Nat) :
    (u32 (packFlags bs)).getLsbD j = bs.getD j false := by
  unfold u32
  rw [BitVec.getLsbD_ofNat, testBit_packFlags]
  by_cases hj : j < 32
  · rw [decide_eq_true hj, Bool.true_and]
  · rw [decide_eq_false hj, Bool.false_and, List.getD_eq_default _ _ (by omega)]

theorem bitAt_eq (b : Bool) (n : Nat) : bitAt b n = b.toNat * 2 ^ n := by cases b <;> simp [bitAt]

theorem Gate.isOn_eq (g : Gate) : g.isOn = (g == .on) := by cases g <;> rfl

theorem State.statusWord_eq (s : State) : s.statusWord = u32 (packFlags
    [s.running, s.fault != 0, s.an.busy, s.wmb.full, s.freq.present, s.ctrl.present, s.an.primed]) := by
  simp only [State.statusWord, State.faulted, bitAt_eq, packFlags, Nat.bit_val]
  congr 1
  omega

theorem Ctl.word_eq (c : Ctl) : c.word = u32 (packFlags [c.lpfEn, c.anAuto]) := by
  simp only [Ctl.word, bitAt_eq, packFlags, Nat.bit_val]
  congr 1
  omega

theorem Cd.gatesWord_eq (c : Cd) : c.gatesWord = u32 (packFlags [c.high == .on, c.low == .on, c.cycle == .on]) := by
  simp only [Cd.gatesWord, Gate.isOn_eq, bitAt_eq, packFlags, Nat.bit_val]
  congr 1
  omega

theorem Voice.flagsWord_eq (v : Voice) : v.flagsWord = u32 (packFlags [v.act, v.pending, v.waveSet, v.rateSet]) := by
  simp only [Voice.flagsWord, bitAt_eq, packFlags, Nat.bit_val]
  congr 1
  omega

end Sys2Proof.Machine

open Sys2Proof Sys2Proof.Machine

/-- Settles O15: the addresses below the voice banks are those of the fixed table; an unmapped one is refused before
anything is done. -/
theorem mappedAddresses : Obligations.MappedAddresses := by
  refine ⟨fun a => ?_, fun a d s h => ⟨command_of_unmapped rfl h, fun hf => command_of_unmapped (by simp [hf]) h⟩⟩
  by_cases hv : 0x1000 ≤ a ∧ a < 0x1800
  · rw [regOf_isSome_of_voice hv]
    constructor
    · intro h
      simp only [h, or_true]
    · intro h
      by_contra hc
      simp only [hc, or_false] at h
      omega
  · have hbank : ¬ ∃ v j, v < 256 ∧ j ≤ 5 ∧ a = 0x1000 + 8 * v + j := by
      rintro ⟨v, j, hv', hj, rfl⟩
      omega
    rw [regOf_isSome_of_fixed hv, mem_fixedRegs_iff]
    simp only [hbank, or_false]

/-- Settles O16: each word is the number of its list of flags, and a bit of it is that entry of the list. -/
theorem flagBits : Obligations.FlagBits := by
  refine ⟨fun s j => ?_, fun s j => ?_, fun s j => ?_, fun s v j => ?_⟩
  · rw [show s.regWord .status = s.statusWord from rfl, s.statusWord_eq, getLsbD_packFlags (by simp)]
    rcases j with _ | _ | _ | _ | _ | _ | _ | j <;> rfl
  · rw [show s.regWord .ctl = s.ctl.word from rfl, s.ctl.word_eq, getLsbD_packFlags (by simp)]
    rcases j with _ | _ | j <;> rfl
  · rw [show s.regWord .cdGates = s.cd.gatesWord from rfl, s.cd.gatesWord_eq, getLsbD_packFlags (by simp)]
    rcases j with _ | _ | _ | j <;> rfl
  · rw [show s.regWord (.voice v .flags) = (s.voice v).flagsWord from rfl, Voice.flagsWord_eq,
      getLsbD_packFlags (by simp)]
    rcases j with _ | _ | _ | _ | j <;> rfl
end

section
/-! SUPPORT. A command is its opcode, the two fields of its word and its operand words; encoding writes these parts and
decoding reads them (30_encoding.md R81 to R83, R86). -/

namespace Sys2Proof

open Laws (commandWord_toNat opField_commandWord opcodeOf_code)

/-! ## The parts of a command -/

/-- The number a command puts in field `u`: 0 where R86 shows 0. -/
def Instr.unitNumber : Instr → Nat
  | .rdmem space _ => space
  | .wrmem space _ _ => space
  | .envProc inst _ => inst
  | .vSetRate v _ => v
  | .vSetWave v _ => v
  | .vNext v => v
  | _ => 0

/-- The number a command puts in field `imm`: 0 where R86 shows 0. -/
def Instr.address : Instr → Nat
  | .rdreg reg => reg
  | .wrreg reg _ => reg
  | _ => 0

/-- The operand words of a command, in order (R82, R83). -/
def Instr.operandWords : Instr → List Word
  | .wrreg _ data => [data]
  | .rdmem _ index => [index]
  | .wrmem _ index data => [index, data]
  | .envProc _ x | .lpfProc x | .zdProc x | .cdProc x | .ctProc x | .engProc x | .pipeSmp x => [x]
  | .anProc len => [len]
  | .vSetRate _ period => [period]
  | .vSetWave _ len => [len]
  | .ctick c0 c1 c2 c3 => [c0, c1, c2, c3]
  | .nop | .init | .rdreg _ | .vNext _ | .pipeBlk | .fpoll => []

/-- The encoding of a command is its command word, made of its opcode and fields, and its operand words. -/
theorem encode_eq_parts (i : Instr) :
    encode i = commandWord i.opcode i.unitNumber i.address :: i.operandWords := by
  cases i <;> rfl

/-- A command is well-formed exactly when its numbers fit their fields (R81). -/
theorem wellFormed_iff (i : Instr) : i.wellFormed = true ↔ i.unitNumber < 2 ^ 8 ∧ i.address < 2 ^ 16 := by
  cases i <;> simp [Instr.wellFormed, Instr.unitNumber, Instr.address, fitsUnit, fitsAddress]

theorem length_operandWords (i : Instr) : i.operandWords.length = i.opcode.format.operands := by
  cases i <;> rfl

theorem unitNumber_of_not_takesUnit {i : Instr} (h : i.opcode.takesUnit = false) : i.unitNumber = 0 := by
  cases i with
  | rdmem | wrmem | envProc | vSetRate | vSetWave | vNext => cases h
  | _ => rfl

theorem address_of_not_takesAddress {i : Instr} (h : i.opcode.takesAddress = false) : i.address = 0 := by
  cases i with
  | rdreg | wrreg => cases h
  | _ => rfl

/-! ## The parts of an assembled command -/

section
variable (o : Opcode) (w : Word) (ops : List Word)

@[simp] theorem assemble_opcode : (assemble o w ops).opcode = o := by cases o <;> rfl

theorem assemble_unitNumber : (assemble o w ops).unitNumber = if o.takesUnit then unitField w else 0 := by
  cases o <;> rfl

theorem assemble_address : (assemble o w ops).address = if o.takesAddress then immField w else 0 := by
  cases o <;> rfl

theorem assemble_operandWords :
    (assemble o w ops).operandWords = (List.range o.format.operands).map fun k => ops.getD k 0 := by
  cases o <;> rfl

end

/-- A command is assembled from its own parts. -/
theorem assemble_of_parts {i : Instr} {w : Word} (hu : unitField w = i.unitNumber) (ha : immField w = i.address) :
    assemble i.opcode w i.operandWords = i := by
  unfold assemble
  rw [hu, ha]
  cases i <;> rfl

/-- Operand words read one by one are the operand words. -/
theorem map_getD_range {ops : List Word} {n : Nat} (h : ops.length = n) :
    ((List.range n).map fun k => ops.getD k 0) = ops := by
  subst h
  refine List.ext_getElem (by simp) fun k hk hk' => ?_
  rw [List.getElem_map, List.getElem_range, List.getD_eq_getElem _ _ hk']

/-- No reserved field is set exactly when each field the command does not take is 0 (R87 (b)). -/
theorem reservedClear_iff (o : Opcode) (w : Word) :
    reservedClear o w = true ↔
      (o.takesUnit = false → unitField w = 0) ∧ (o.takesAddress = false → immField w = 0) := by
  unfold reservedClear
  cases o.takesUnit <;> cases o.takesAddress <;> simp

/-! ## The fields of a command word (R81) -/

theorem unitField_lt (w : Word) : unitField w < 2 ^ 8 := Nat.mod_lt _ (by decide)

theorem immField_lt (w : Word) : immField w < 2 ^ 16 := Nat.mod_lt _ (by decide)

/-- A word is the sum of its fields. -/
theorem toNat_eq_fields (w : Word) : w.toNat = opField w * 2 ^ 24 + unitField w * 2 ^ 16 + immField w := by
  unfold opField unitField immField
  omega

theorem unitField_commandWord (o : Opcode) {u imm : Nat} (hu : u < 2 ^ 8) (hi : imm < 2 ^ 16) :
    unitField (commandWord o u imm) = u := by
  unfold unitField
  rw [commandWord_toNat o hu hi]
  omega

theorem immField_commandWord (o : Opcode) {u imm : Nat} (hu : u < 2 ^ 8) (hi : imm < 2 ^ 16) :
    immField (commandWord o u imm) = imm := by
  unfold immField
  rw [commandWord_toNat o hu hi]
  omega

/-- A word is the command word of the opcode it names and its own fields. -/
theorem commandWord_of_fields {o : Opcode} {w : Word} (h : opField w = o.code) :
    commandWord o (unitField w) (immField w) = w := by
  apply BitVec.eq_of_toNat_eq
  rw [commandWord_toNat o (unitField_lt w) (immField_lt w), toNat_eq_fields w, h]

/-- A value of field `op` names an opcode exactly when it is that opcode's code (R86). -/
theorem opcodeOf_eq_some_iff {n : Nat} {o : Opcode} : opcodeOf n = some o ↔ n = o.code := by
  constructor
  · intro h
    exact (eq_of_beq (List.find?_some (p := fun o : Opcode => o.code == n) h)).symm
  · rintro rfl
    exact opcodeOf_code o

theorem opcodeOf_eq_none {n : Nat} (h : ∀ o : Opcode, n ≠ o.code) : opcodeOf n = none :=
  Option.eq_none_iff_forall_ne_some.2 fun o ho => h o (opcodeOf_eq_some_iff.1 ho)

/-! ## What the decoder answers (R87, R88) -/

section
variable {o : Opcode} {w : Word} {ws : List Word}

/-- An unknown opcode is illegal, and one word long (R87 (a)). -/
theorem decode_of_unknown (h : opcodeOf (opField w) = none) :
    decode (w :: ws) = .illegal (.unknownOpcode (opField w)) ws := by
  simp only [decode, h]

/-- A known opcode with no reserved field set heads a command (R88). -/
theorem decode_of_clear (ho : opField w = o.code) (hlen : o.format.operands ≤ ws.length)
    (hclear : reservedClear o w = true) :
    decode (w :: ws) = .command (assemble o w (ws.take o.format.operands)) (ws.drop o.format.operands) := by
  simp only [decode, opcodeOf_eq_some_iff.2 ho, if_neg (Nat.not_lt.2 hlen), if_pos hclear]

/-- A reserved field that is set makes the command illegal, with its operand words (R87 (b)). -/
theorem decode_of_reserved (ho : opField w = o.code) (hlen : o.format.operands ≤ ws.length)
    (hset : reservedClear o w = false) :
    decode (w :: ws) = .illegal (.reservedField o) (ws.drop o.format.operands) := by
  simp only [decode, opcodeOf_eq_some_iff.2 ho, if_neg (Nat.not_lt.2 hlen), hset, Bool.false_eq_true, if_false]

end

/-- The decoder answers a command in one case alone. -/
theorem decode_command {ws rest : List Word} {i : Instr} (h : decode ws = .command i rest) :
    ∃ o w ws', ws = w :: ws' ∧ opField w = o.code ∧ o.format.operands ≤ ws'.length ∧ reservedClear o w = true
      ∧ i = assemble o w (ws'.take o.format.operands) ∧ rest = ws'.drop o.format.operands := by
  cases ws with
  | nil => cases h
  | cons w ws' =>
    cases ho : opcodeOf (opField w) with
    | none => rw [decode_of_unknown ho] at h; cases h
    | some o =>
      rw [opcodeOf_eq_some_iff] at ho
      by_cases hlen : o.format.operands ≤ ws'.length
      · cases hclear : reservedClear o w with
        | false => rw [decode_of_reserved ho hlen hclear] at h; cases h
        | true =>
          rw [decode_of_clear ho hlen hclear] at h
          cases h
          exact ⟨o, w, ws', rfl, ho, hlen, hclear, rfl, rfl⟩
      · simp only [decode, opcodeOf_eq_some_iff.2 ho, if_pos (Nat.not_le.1 hlen)] at h
        cases h

/-! ## Encoding what was decoded, and back -/

/-- An assembled command is well-formed: its numbers are fields. -/
theorem wellFormed_assemble (o : Opcode) (w : Word) (ops : List Word) : (assemble o w ops).wellFormed = true := by
  rw [wellFormed_iff, assemble_unitNumber, assemble_address]
  constructor
  · split
    · exact unitField_lt w
    · decide
  · split
    · exact immField_lt w
    · decide

/-- A command assembled from a word without reserved bits and all its operand words encodes to these words. -/
theorem encode_assemble {o : Opcode} {w : Word} {ops : List Word} (ho : opField w = o.code)
    (hclear : reservedClear o w = true) (hlen : ops.length = o.format.operands) :
    encode (assemble o w ops) = w :: ops := by
  obtain ⟨hu, ha⟩ := (reservedClear_iff o w).1 hclear
  have hunit : (assemble o w ops).unitNumber = unitField w := by
    rw [assemble_unitNumber]
    cases h : o.takesUnit
    · exact (hu h).symm
    · rfl
  have haddr : (assemble o w ops).address = immField w := by
    rw [assemble_address]
    cases h : o.takesAddress
    · exact (ha h).symm
    · rfl
  rw [encode_eq_parts, assemble_opcode, hunit, haddr, commandWord_of_fields ho, assemble_operandWords,
    map_getD_range hlen]

/-- The fields of the command word are the numbers of the command, and the words after it are taken by its format. -/
theorem decode_encode_append {i : Instr} (h : i.wellFormed = true) (rest : List Word) :
    decode (encode i ++ rest) = .command i rest := by
  obtain ⟨hu, ha⟩ := (wellFormed_iff i).1 h
  have hlen : i.operandWords.length = i.opcode.format.operands := length_operandWords i
  have hunit := unitField_commandWord i.opcode hu ha
  have haddr := immField_commandWord i.opcode hu ha
  have hclear : reservedClear i.opcode (commandWord i.opcode i.unitNumber i.address) = true := by
    rw [reservedClear_iff, hunit, haddr]
    exact ⟨unitNumber_of_not_takesUnit, address_of_not_takesAddress⟩
  rw [encode_eq_parts, List.cons_append,
    decode_of_clear (opField_commandWord _ hu ha) (by rw [List.length_append]; omega) hclear,
    List.take_left' hlen, List.drop_left' hlen, assemble_of_parts hunit haddr]

end Sys2Proof

open Sys2Proof Sys2Proof.Machine

/-- Settles O1: the command word of a well-formed command has its opcode and its numbers, so the decoder assembles the
command from its own parts. -/
theorem decodeEncodeRoundTrip : Obligations.DecodeEncodeRoundTrip := by
  intro i rest h
  exact decode_encode_append h rest

/-- Settles O2: the decoder answers a command only with all its words there and no reserved field set, and then
assembles it from every bit of them. -/
theorem encodeDecodeRoundTrip : Obligations.EncodeDecodeRoundTrip := by
  intro ws i rest h
  obtain ⟨o, w, ws', rfl, ho, hlen, hclear, rfl, rfl⟩ := decode_command h
  refine ⟨wellFormed_assemble o w _, ?_⟩
  rw [encode_assemble ho hclear (List.length_take_of_le hlen), List.cons_append, List.take_append_drop]

/-- Settles O5: the words are the encodings of the commands. -/
theorem writtenWordsDecode : Obligations.WrittenWordsDecode := by
  exact ⟨decodeEncodeRoundTrip .nop [] rfl, decodeEncodeRoundTrip (.rdreg 0x20) [] rfl,
    decodeEncodeRoundTrip (.wrreg 0x10 0x3F000000) [] rfl, decodeEncodeRoundTrip (.wrmem 9 1 0x3F800000) [] rfl,
    decodeEncodeRoundTrip (.envProc 1 0x3F800000) [] rfl, decodeEncodeRoundTrip (.ctProc 0xBF800000) [] rfl,
    decodeEncodeRoundTrip (.anProc 1024) [] rfl, decodeEncodeRoundTrip (.vSetRate 0 8) [] rfl,
    decodeEncodeRoundTrip (.ctick 0x00000000 0x3E800000 0x3F000000 0x3F800000) [] rfl⟩
end

section
/-! SUPPORT. The columns `match` and `mask` of the encoding table, and the words they leave out (30_encoding.md R82,
R86, R87). -/

namespace Sys2Proof

open Laws (commandWord_toNat)

/-! ## Words under a mask (R82) -/

/-- The mask that keeps field `op`, and fields `u` and `imm` where asked (R82). -/
def fieldMask (keepUnit keepImm : Bool) : Word :=
  BitVec.allOnes 8 ++ (if keepUnit then BitVec.allOnes 8 else 0#8) ++ (if keepImm then BitVec.allOnes 16 else 0#16)

/-- Three fields put together, as a number. -/
theorem toNat_append_fields (c u : BitVec 8) (a : BitVec 16) :
    (c ++ u ++ a).toNat = c.toNat * 2 ^ 24 + u.toNat * 2 ^ 16 + a.toNat := by
  rw [BitVec.toNat_append, ← Nat.shiftLeft_add_eq_or_of_lt a.isLt, BitVec.toNat_append,
    ← Nat.shiftLeft_add_eq_or_of_lt u.isLt, Nat.shiftLeft_eq, Nat.shiftLeft_eq]
  omega

/-- A word is its fields put together (R81). -/
theorem exists_append_fields (w : Word) : ∃ (c u : BitVec 8) (a : BitVec 16),
    w = c ++ u ++ a ∧ opField w = c.toNat ∧ unitField w = u.toNat ∧ immField w = a.toNat := by
  have hop : opField w < 2 ^ 8 := by unfold opField; omega
  refine ⟨.ofNatLT _ hop, .ofNatLT _ (unitField_lt w), .ofNatLT _ (immField_lt w), ?_, rfl, rfl, rfl⟩
  apply BitVec.eq_of_toNat_eq
  rw [toNat_append_fields]
  exact toNat_eq_fields w

/-- A field under the mask that keeps it or not. -/
theorem toNat_and_keep {n : Nat} (x : BitVec n) (keep : Bool) :
    (x &&& if keep then BitVec.allOnes n else 0#n).toNat = if keep then x.toNat else 0 := by
  cases keep
  · exact congrArg BitVec.toNat BitVec.and_zero
  · exact congrArg BitVec.toNat BitVec.and_allOnes

/-- What is left under a mask: the fields it keeps. -/
theorem toNat_and_fieldMask (w : Word) (keepUnit keepImm : Bool) :
    (w &&& fieldMask keepUnit keepImm).toNat
      = opField w * 2 ^ 24 + (if keepUnit then unitField w else 0) * 2 ^ 16 + (if keepImm then immField w else 0) := by
  obtain ⟨c, u, a, hw, hop, hunit, himm⟩ := exists_append_fields w
  rw [hop, hunit, himm, hw]
  unfold fieldMask
  rw [BitVec.and_append, BitVec.and_append, toNat_append_fields, BitVec.and_allOnes, toNat_and_keep, toNat_and_keep]

/-- A word agrees with the bare command word of an opcode under a mask exactly when it names that opcode and the other
fields the mask keeps are 0. -/
theorem and_fieldMask_eq_iff {o : Opcode} {w : Word} {keepUnit keepImm : Bool} :
    w &&& fieldMask keepUnit keepImm = commandWord o 0 0 ↔
      opField w = o.code ∧ (keepUnit = true → unitField w = 0) ∧ (keepImm = true → immField w = 0) := by
  have hu := unitField_lt w
  have ha := immField_lt w
  rw [← BitVec.toNat_inj, toNat_and_fieldMask, commandWord_toNat o (by decide) (by decide)]
  cases keepUnit <;> cases keepImm <;> simp <;> omega

/-! ## The table (R86) -/

/-- Every row of the table is made from its opcode: `match` is the bare command word, and `mask` keeps what R86 shows as
0. -/
theorem encodingTable_row {e : Machine.EncodingRow} (he : e ∈ Machine.encodingTable) :
    e = ⟨e.op, commandWord e.op 0 0, fieldMask (!e.op.takesUnit) (!e.op.takesAddress), e.op.format.operands⟩ := by
  have hrows : ∀ r ∈ Machine.encodingTable,
      r = ⟨r.op, commandWord r.op 0 0, fieldMask (!r.op.takesUnit) (!r.op.takesAddress), r.op.format.operands⟩ := by
    decide
  exact hrows e he

/-- Every opcode has its row. -/
theorem exists_row (o : Opcode) : ∃ e ∈ Machine.encodingTable, e.op = o := by cases o <;> decide

/-- A command word agrees with `match` under `mask` exactly when it names the row's opcode with no reserved field
set. -/
theorem and_mask_eq_pattern_iff {e : Machine.EncodingRow} (he : e ∈ Machine.encodingTable) {w : Word} :
    w &&& e.mask = e.pattern ↔ opField w = e.op.code ∧ reservedClear e.op w = true := by
  rw [encodingTable_row he]
  simp only [and_fieldMask_eq_iff, reservedClear_iff, Bool.not_eq_true']

/-- Field `op` alone agrees with `match` exactly when the word names the row's opcode. -/
theorem and_opMask_eq_pattern_iff {e : Machine.EncodingRow} (he : e ∈ Machine.encodingTable) {w : Word} :
    w &&& 0xFF000000 = e.pattern ↔ opField w = e.op.code := by
  rw [encodingTable_row he, show (0xFF000000 : Word) = fieldMask false false by decide, and_fieldMask_eq_iff]
  simp

/-! ## The answer (R87) -/

/-- An illegal command word is answered ST_ERR_ILLEGAL on the command agent's turn (R87). -/
theorem Machine.step_of_illegal {s : Machine.State} {why : Illegal} {rest : List Word} (hnext : s.commandNext)
    (h : decode s.port = .illegal why rest) : Machine.step s = .next ((s.endTurn rest).respond .errIllegal []) := by
  have hport : decode (s.setSched s.sched.tail).port = .illegal why rest := h
  rw [Machine.step_of_commandNext hnext, Machine.commandTurn, hport]
  rfl

end Sys2Proof

open Sys2Proof Sys2Proof.Machine

/-- Settles O3: agreement with `match` under `mask` is the opcode and clear reserved fields. -/
theorem matchAndMaskSelectCommand : Obligations.MatchAndMaskSelectCommand := by
  intro e he w ws hmatch hlen
  obtain ⟨hop, hclear⟩ := (and_mask_eq_pattern_iff he).1 hmatch
  rw [encodingTable_row he] at hlen ⊢
  exact ⟨_, decode_of_clear hop hlen hclear, assemble_opcode _ _ _, wellFormed_assemble _ _ _⟩

/-- Settles O4: a word whose field `op` is in no row has an unknown opcode; one that has the opcode of a row and not its
`match` has a reserved field set. -/
theorem illegalWordsAnswered : Obligations.IllegalWordsAnswered := by
  intro s w ws hnext hport
  refine ⟨fun hnone => ?_, fun e he hop hmask hlen => ?_⟩
  · have hunknown : opcodeOf (opField w) = none := opcodeOf_eq_none fun o ho => by
      obtain ⟨e, he, rfl⟩ := exists_row o
      exact hnone e he ((and_opMask_eq_pattern_iff he).2 ho)
    exact step_of_illegal hnext (hport ▸ decode_of_unknown hunknown)
  · have hcode := (and_opMask_eq_pattern_iff he).1 hop
    have hset : reservedClear e.op w = false := by
      rw [← Bool.not_eq_true]
      exact fun hclear => hmask ((and_mask_eq_pattern_iff he).2 ⟨hcode, hclear⟩)
    have hoperands : e.operands = e.op.format.operands := congrArg EncodingRow.operands (encodingTable_row he)
    rw [hoperands] at hlen ⊢
    exact step_of_illegal hnext (hport ▸ decode_of_reserved hcode hlen hset)
end

section
/-! SUPPORT. The running-state check of admission (30_encoding.md R92, check 3). -/

namespace Sys2Proof.Machine

/-- A command that the lock lets pass, in the wrong running state, is refused with ST_ERR_STATE (R92, check 3). -/
theorem command_of_wrongState {lock : Bool} {need : RunNeed} {body : M (List Word)} {s : State}
    (hlock : (lock || s.fault == 0) = true) (hmet : need.met s.running = false) :
    command lock need body s = .next (s.respond .errState []) := by
  have hrefused : admission lock need s = .error (.refused .errState) s := by
    rcases admit_cases lock need s with ⟨h, -⟩ | ⟨-, -, ha⟩ | ⟨-, h, -⟩
    · rw [hlock] at h; cases h
    · exact ha
    · rw [hmet] at h; cases h
  unfold command outcomeOf
  rw [M.bind_of_error hrefused]

end Sys2Proof.Machine

open Sys2Proof Sys2Proof.Machine

/-- Settles O10: with no fault recorded the lock lets every command pass, and the running state decides. -/
theorem runningStateChecked : Obligations.RunningStateChecked := by
  intro s hfault
  have hunlocked : ∀ lock : Bool, (lock || s.fault == 0) = true := by simp [hfault]
  refine ⟨fun hrun => ?_, fun hstopped i hnop hinit hrdreg hwrreg => ?_⟩
  · exact command_of_wrongState (need := .stopped) (hunlocked _) (by rw [hrun]; rfl)
  · cases i with
    | nop => exact absurd rfl hnop
    | init => exact absurd rfl hinit
    | rdreg a => exact absurd rfl (hrdreg a)
    | wrreg a w => exact absurd rfl (hwrreg a w)
    | _ => exact command_of_wrongState (need := .running) (hunlocked _) hstopped
end

section
/-! SUPPORT. A logic for pseudocode that leaves the port, the schedule and the responses alone, and that refuses with
the error statuses of R85 other than ST_ERR_ILLEGAL. -/

namespace Sys2Proof.Machine

variable {α β : Type}

/-! ## The interface -/

/-- The fields of the state that are the interface's: words waiting, turns to come, responses sent. -/
structure Interface where
  port : List Word
  sched : List Turn
  resp : List Response

def State.interface (s : State) : Interface := ⟨s.port, s.sched, s.resp⟩

section
variable (s : State)
@[simp] theorem State.interface_setLpf (x : Lpf) : (s.setLpf x).interface = s.interface := rfl
@[simp] theorem State.interface_setZdPrev (x : F32) : (s.setZdPrev x).interface = s.interface := rfl
@[simp] theorem State.interface_setCt (x : Ct) : (s.setCt x).interface = s.interface := rfl
@[simp] theorem State.interface_setAn (x : An) : (s.setAn x).interface = s.interface := rfl
@[simp] theorem State.interface_setEng (x : Eng) : (s.setEng x).interface = s.interface := rfl
@[simp] theorem State.interface_setPipe (x : Pipe) : (s.setPipe x).interface = s.interface := rfl
@[simp] theorem State.interface_setWmb (x : Wmb) : (s.setWmb x).interface = s.interface := rfl
@[simp] theorem State.interface_setFreq (x : Freq) : (s.setFreq x).interface = s.interface := rfl
@[simp] theorem State.interface_setCtrl (x : Ctrl) : (s.setCtrl x).interface = s.interface := rfl
@[simp] theorem State.interface_setVoice (v : Nat) (x : Voice) : (s.setVoice v x).interface = s.interface := rfl
@[simp] theorem State.interface_poke (sp : Space) (i : Nat) (w : Word) : (s.poke sp i w).interface = s.interface := rfl

@[simp] theorem State.interface_setEnv (u : Nat) (x : Env) : (s.setEnv u x).interface = s.interface := by
  unfold State.setEnv
  split <;> rfl

@[simp] theorem State.interface_recordFault (c : FaultCause) (i : Word) :
    (s.recordFault c i).interface = s.interface := by
  simp [State.interface]

@[simp] theorem State.interface_detect (x : F32) : (s.detect x).1.interface = s.interface := by
  simp [State.interface]

@[simp] theorem State.interface_initialised : s.initialised.interface = s.interface := by
  simp [State.interface, State.initialised]

@[simp] theorem State.interface_putReg (r : Reg) (w : Word) : (s.putReg r w).interface = s.interface := by
  cases r <;> rfl
end

/-! ## Pseudocode that answers -/

/-- The statuses that admission and the checks of a command refuse with (R85). -/
def Status.isRefusal : Status → Bool
  | .errOperand | .errState | .errAccess | .errFaulted => true
  | .ok | .errIllegal | .fault => false

/-- A refusal carries a status of those. -/
def Stop.proper : Stop → Bool
  | .refused st => st.isRefusal
  | .raised | .fault _ => true

/-- Run with the interface `k`, the pseudocode leaves it, however it ends: normally with a result of which `Q` holds, or
with a proper stop. -/
def Answers (k : Interface) (Q : α → Prop) (x : M α) : Prop :=
  ∀ s, s.interface = k →
    (∃ a t, x s = .ok a t ∧ Q a ∧ t.interface = k) ∨ (∃ e t, x s = .error e t ∧ e.proper = true ∧ t.interface = k)

/-- Pseudocode whose result does not matter. -/
abbrev Internal (k : Interface) (x : M α) : Prop := Answers k (fun _ => True) x

namespace Answers
variable {k : Interface} {Q : α → Prop} {R : β → Prop} {x y : M α}

/-- Pseudocode that always ends normally. -/
theorem of_ok {g : State → α} {f : State → State} (hx : ∀ s, x s = .ok (g s) (f s))
    (hQ : ∀ s, s.interface = k → Q (g s)) (hf : ∀ s, (f s).interface = s.interface) : Answers k Q x :=
  fun s hs => .inl ⟨_, _, hx s, hQ s hs, (hf s).trans hs⟩

theorem pure {a : α} (h : Q a) : Answers k Q (Pure.pure a : M α) :=
  fun s hs => .inl ⟨a, s, rfl, h, hs⟩

theorem raise (c : FaultCause) (i : Word) : Answers k Q (raiseFault c i : M α) :=
  fun s hs => .inr ⟨_, _, rfl, rfl, (s.interface_recordFault c i).trans hs⟩

theorem refuse {st : Status} (h : st.isRefusal = true) : Answers k Q (refuse st : M α) :=
  fun s hs => .inr ⟨_, s, rfl, h, hs⟩

/-- Sequencing: the second part may use what holds of the result of the first. -/
theorem bind {f : α → M β} (hx : Answers k Q x) (hf : ∀ a, Q a → Answers k R (f a)) : Answers k R (x >>= f) := by
  intro s hs
  rcases hx s hs with ⟨a, t, h, ha, ht⟩ | ⟨e, t, h, he, ht⟩
  · rw [M.bind_of_ok h]
    exact hf a ha t ht
  · exact .inr ⟨e, t, M.bind_of_error h, he, ht⟩

/-- Sequencing after a part whose result does not matter. -/
theorem andThen {f : α → M β} (hx : Internal k x) (hf : ∀ a, Answers k R (f a)) : Answers k R (x >>= f) :=
  hx.bind fun a _ => hf a

/-- Sequencing after a read of the state, whose interface is `k`. -/
theorem get {f : State → M β} (hf : ∀ s, s.interface = k → Answers k R (f s)) :
    Answers k R ((MonadState.get : M State) >>= f) :=
  bind (of_ok (fun _ => rfl) (fun _ hs => hs) fun _ => rfl) hf

/-- Sequencing after a write of a state whose interface is `k`. -/
theorem set {u : State} {f : PUnit → M β} (hu : u.interface = k) (hf : Answers k R (f ⟨⟩)) :
    Answers k R ((MonadStateOf.set u : M PUnit) >>= f) :=
  fun _ _ => hf u hu

theorem ite {c : Prop} [Decidable c] (hx : Answers k Q x) (hy : Answers k Q y) : Answers k Q (if c then x else y) := by
  split
  · exact hx
  · exact hy

/-- A part done under a condition, then the rest. -/
theorem ifThen {c : Prop} [Decidable c] {x : M Unit} {f : Unit → M β} (hx : Internal k x) (hf : Answers k R (f ())) :
    Answers k R (if c then x >>= f else f ()) :=
  ite (hx.andThen fun _ => hf) hf

end Answers

/-! ## Primitives and loops -/

namespace Internal
variable {k : Interface}

theorem modify {f : State → State} (hf : ∀ s, (f s).interface = s.interface) : Internal k (modify f : M PUnit) :=
  .of_ok (fun _ => rfl) (fun _ _ => trivial) hf

theorem require (b : Bool) {st : Status} (h : st.isRefusal = true) : Internal k (require b st) := by
  cases b
  · exact .refuse h
  · exact .pure trivial

theorem loadCell (sp : Space) (i : Nat) : Internal k (loadCell sp i) := by
  intro s hs
  rcases loadCell_cases sp i s with ⟨-, h⟩ | ⟨-, h⟩
  · exact .inl ⟨_, s, h, trivial, hs⟩
  · exact .inr ⟨_, s, h, rfl, hs⟩

theorem storeCell (sp : Space) (i : Nat) (w : Word) : Internal k (storeCell sp i w) := by
  intro s hs
  rcases storeCell_cases sp i w s with ⟨-, h⟩ | ⟨-, h⟩
  · exact .inl ⟨_, _, h, trivial, (s.interface_poke sp i w).trans hs⟩
  · exact .inr ⟨_, s, h, rfl, hs⟩

theorem voiceAt (v : Nat) : Internal k (voiceAt v) := by
  intro s hs
  rcases voiceAt_cases v s with ⟨-, h⟩ | ⟨-, h⟩
  · exact .inl ⟨_, s, h, trivial, hs⟩
  · exact .inr ⟨_, s, h, rfl, hs⟩

theorem putVoice (v : Nat) (x : Voice) : Internal k (putVoice v x) := by
  intro s hs
  rcases putVoice_cases v x s with ⟨-, h⟩ | ⟨-, h⟩
  · exact .inl ⟨_, _, h, trivial, (s.interface_setVoice v x).trans hs⟩
  · exact .inr ⟨_, s, h, rfl, hs⟩

/-- The check of the voice number (44_voice_engine.md R191, R192, R194). -/
theorem requireVoice (v : Nat) : Internal k (requireVoice v) := .get fun _ _ => require _ rfl

/-- The operand of RDREG and WRREG (R48). -/
theorem regOperand (a : Nat) : Internal k (regOperand a) := by
  unfold Machine.regOperand
  cases regOf a with
  | none => exact .refuse rfl
  | some r => exact .pure trivial

/-- The operands of RDMEM and WRMEM (R107, R108). -/
theorem cellOperand (space : Nat) (index : Word) : Internal k (cellOperand space index) := by
  intro s hs
  unfold Machine.cellOperand
  cases spaceOf space with
  | none => exact .inr ⟨_, s, rfl, rfl, hs⟩
  | some sp =>
    by_cases hi : index.toNat < s.spaceSize sp
    · exact .inl ⟨_, s, if_pos hi, trivial, hs⟩
    · exact .inr ⟨_, s, if_neg hi, rfl, hs⟩

theorem forFrom {body : Nat → M Unit} (h : ∀ i, Internal k (body i)) (n a : Nat) : Internal k (forFrom n a body) := by
  induction n generalizing a with
  | zero => exact .pure trivial
  | succ n ih => exact (h a).andThen fun _ => ih (a + 1)

end Internal

end Sys2Proof.Machine
end

section
/-! SUPPORT. No unit touches the interface. -/

namespace Sys2Proof.Machine

/-- `AnCoarse` stores the estimate and returns it (R164). -/
theorem anCoarse_apply (p : Nat) (s : State) : anCoarse p s =
    .ok (coarseEstimate s.cfg p) (s.setAn { s.an with fEst := coarseEstimate s.cfg p }) := by
  unfold anCoarse
  rw [M.bind_of_ok (M.get_apply s)]
  rfl

namespace Internal
variable {k : Interface}

/-! ## Filters and tracker (41_filters.md, 42_cycle.md) -/

theorem envProcess (u : Nat) (x : F32) : Internal k (envProcess u x) :=
  .of_ok (envProcess_apply u x) (fun _ _ => trivial) fun s => s.interface_setEnv u _

theorem lpfProcess (x : F32) : Internal k (lpfProcess x) :=
  .of_ok (lpfProcess_apply x) (fun _ _ => trivial) fun s => s.interface_setLpf _

theorem zdProcess (x : F32) : Internal k (zdProcess x) :=
  .of_ok (zdProcess_apply x) (fun _ _ => trivial) fun s => s.interface_setZdPrev x

theorem cdProcess (x : F32) : Internal k (cdProcess x) :=
  .of_ok (cdProcess_apply x) (fun _ _ => trivial) fun s => s.interface_detect x

theorem ctProcess (x : F32) : Internal k (ctProcess x) := by
  refine .get fun s _ => (storeCell _ _ _).andThen fun _ => .andThen (modify fun t => t.interface_setCt _) fun _ => ?_
  refine (zdProcess x).andThen fun _ => .ifThen (modify fun t => t.interface_setCt _) ?_
  refine (cdProcess x).andThen fun _ => .ifThen (modify fun t => t.interface_setCt _) ?_
  exact .get fun _ _ => .pure trivial

/-! ## Voices and engine (44_voice_engine.md) -/

theorem voiceSetRate (v : Nat) (p : Word) : Internal k (voiceSetRate v p) :=
  (voiceAt v).andThen fun _ => putVoice v _

theorem voiceSetWaveform (v : Nat) (len : Word) : Internal k (voiceSetWaveform v len) := by
  refine (voiceAt v).andThen fun x => (forFrom (fun i => ?_) _ 0).andThen fun _ => putVoice v _
  exact (loadCell _ _).andThen fun _ => .get fun _ _ => storeCell _ _ _

theorem voiceNext (v : Nat) : Internal k (voiceNext v) := by
  refine (voiceAt v).andThen fun x => .ifThen (.raise _ _) ?_
  cases floorU x.position x.actLen with
  | none => exact .raise _ _
  | some i0 =>
    refine .get fun _ _ => (loadCell _ _).andThen fun _ => (loadCell _ _).andThen fun _ => ?_
    exact (putVoice v _).andThen fun _ => .pure trivial

theorem mixVoices (amp : F32) (n i : Nat) (acc : F32) : Internal k (mixVoices amp n i acc) := by
  induction n generalizing i acc with
  | zero => exact .pure trivial
  | succ n ih => exact (voiceNext i).andThen fun _ => ih (i + 1) _

theorem assignPeriod (c : Cycle) : Internal k (assignPeriod c) :=
  .ite (.get fun _ _ => (voiceSetRate _ _).andThen fun _ => modify fun t => t.interface_setEng _) (.pure trivial)

theorem engProcess (x : F32) : Internal k (engProcess x) :=
  (ctProcess x).andThen fun c => (assignPeriod c).andThen fun _ => .get fun _ _ => mixVoices _ _ 0 _

/-! ## Pipeline (45_pipeline.md) -/

theorem historyWrite (x : F32) : Internal k (historyWrite x) :=
  .get fun _ _ => (storeCell _ _ _).andThen fun _ => modify fun t => t.interface_setPipe _

theorem publishWindow : Internal k publishWindow := by
  refine .get fun _ _ => .ite (.andThen (forFrom (fun i => ?_) _ 0) fun _ => ?_) (.pure trivial)
  · exact (loadCell _ _).andThen fun _ => storeCell _ _ _
  · exact modify fun t => t.interface_setWmb _

theorem sampleStep (x : F32) : Internal k (sampleStep x) := by
  refine (historyWrite x).andThen fun _ => .get fun s hs => ?_
  refine .ite (.set ((s.interface_setPipe _).trans hs) ?_) (engProcess x)
  exact publishWindow.andThen fun _ => engProcess x

theorem blockSample (i : Nat) : Internal k (blockSample i) :=
  (loadCell _ _).andThen fun x => (sampleStep x).andThen fun _ => storeCell _ _ _

/-! ## Analyzer (43_analyzer.md) -/

theorem anLoad : Internal k anLoad :=
  .get fun _ _ => forFrom (fun _ => (loadCell _ _).andThen fun _ => storeCell _ _ _) _ 0

theorem anWindow : Internal k anWindow := by
  refine .get fun _ _ => forFrom (fun _ => ?_) _ 0
  refine (loadCell _ _).andThen fun _ => (loadCell _ _).andThen fun _ => ?_
  exact (storeCell _ _ _).andThen fun _ => storeCell _ _ _

theorem swapCells (sp : Space) (i j : Nat) : Internal k (swapCells sp i j) :=
  (loadCell _ _).andThen fun _ => (loadCell _ _).andThen fun _ =>
    (storeCell _ _ _).andThen fun _ => storeCell _ _ _

theorem anPermute (n bits : Nat) : Internal k (anPermute n bits) :=
  forFrom (fun _ => .ite ((swapCells _ _ _).andThen fun _ => swapCells _ _ _) (.pure trivial)) n 0

theorem butterfly (a b t : Nat) : Internal k (butterfly a b t) := by
  refine (loadCell _ _).andThen fun _ => (loadCell _ _).andThen fun _ => ?_
  refine (loadCell _ _).andThen fun _ => (loadCell _ _).andThen fun _ => ?_
  refine (loadCell _ _).andThen fun _ => (loadCell _ _).andThen fun _ => ?_
  refine (storeCell _ _ _).andThen fun _ => (storeCell _ _ _).andThen fun _ => ?_
  exact (storeCell _ _ _).andThen fun _ => storeCell _ _ _

theorem fftStage (n st : Nat) : Internal k (fftStage n st) :=
  forFrom (fun _ => forFrom (fun _ => butterfly _ _ _) _ 0) _ 0

theorem anFft : Internal k anFft :=
  .get fun _ _ => (anPermute _ _).andThen fun _ => forFrom (fun _ => fftStage _ _) _ 1

theorem binMagnitude (b : Nat) : Internal k (binMagnitude b) :=
  (loadCell _ _).andThen fun _ => (loadCell _ _).andThen fun _ => .pure trivial

theorem peakSearch (n b p : Nat) (best : F32) : Internal k (peakSearch n b p best) := by
  induction n generalizing b p best with
  | zero => exact .pure trivial
  | succ n ih => exact (binMagnitude b).andThen fun _ => .ite (ih _ _ _) (ih _ _ _)

theorem anPeak : Internal k anPeak := by
  refine .get fun _ _ => (binMagnitude 0).andThen fun _ => (peakSearch _ _ _ _).andThen fun _ => ?_
  refine (loadCell _ _).andThen fun _ => .andThen (forFrom (fun _ => ?_) _ 0) fun _ => ?_
  · exact (loadCell _ _).andThen fun _ => (loadCell _ _).andThen fun _ => storeCell _ _ _
  · exact .andThen (modify fun t => t.interface_setAn _) fun _ => (loadCell _ _).andThen fun _ => .pure trivial

theorem anCoarse (p : Nat) : Internal k (anCoarse p) :=
  .of_ok (anCoarse_apply p) (fun _ _ => trivial) fun s => s.interface_setAn _

theorem anRefine (pk : Peak) (fEst : F32) : Internal k (anRefine pk fEst) := by
  refine .get fun s _ => ?_
  cases refined s.cfg pk fEst with
  | none => exact .raise _ _
  | some f => exact .pure trivial

theorem anRun : Internal k anRun :=
  anWindow.andThen fun _ => anFft.andThen fun _ => anPeak.andThen fun _ =>
    (anCoarse _).andThen fun _ => anRefine _ _

end Internal

end Sys2Proof.Machine
end

section
/-! SUPPORT. Every command sends one response (30_encoding.md R84, R86). -/

namespace Sys2Proof.Machine

/-! ## The response of a command (R84) -/

/-- The command that took `s` to `t` sent one response, with `n` result words when it is ST_OK and none otherwise, and
took nothing from the port or the schedule. -/
def State.respondedWith (s t : State) (n : Nat) : Prop :=
  ∃ st rs, s.answered t st rs ∧ rs.length = (if st = .ok then n else 0) ∧ st ≠ .errIllegal
    ∧ t.port = s.port ∧ t.sched = s.sched

/-- A response sent from a state with the interface of `s`. -/
theorem State.respondedWith_respond {s u : State} {n : Nat} {st : Status} {rs : List Word}
    (hu : u.interface = s.interface) (hlen : rs.length = if st = .ok then n else 0) (hst : st ≠ .errIllegal) :
    s.respondedWith (u.respond st rs) n := by
  obtain ⟨hport, hsched, hresp⟩ := Interface.mk.inj hu
  exact ⟨st, rs, State.answered_respond_iff.2 ⟨hresp, rfl, rfl⟩, hlen, hst, hport, hsched⟩

theorem Status.ne_of_isRefusal {st : Status} (h : st.isRefusal = true) : st ≠ .ok ∧ st ≠ .errIllegal := by
  constructor <;> rintro rfl <;> cases h

theorem admission_internal {k : Interface} (lock : Bool) (need : RunNeed) : Internal k (admission lock need) :=
  .get fun _ _ => (Internal.require _ rfl).andThen fun _ => Internal.require _ rfl

/-- A command whose pseudocode answers with `n` words responds with `n` words. -/
theorem command_responded {lock : Bool} {need : RunNeed} {body : M (List Word)} {s t : State} {n : Nat}
    (h : command lock need body s = .next t) (hbody : Answers s.interface (fun rs => rs.length = n) body) :
    s.respondedWith t n := by
  rcases (admission_internal lock need).andThen (fun _ => hbody) s rfl with
    ⟨rs, u, hrun, hlen, hu⟩ | ⟨e, u, hrun, he, hu⟩
  all_goals unfold command outcomeOf at h; rw [hrun] at h
  · cases h
    exact State.respondedWith_respond hu hlen nofun
  · cases e with
    | raised => cases h; exact State.respondedWith_respond hu rfl nofun
    | refused st =>
      cases h
      obtain ⟨hok, hillegal⟩ := Status.ne_of_isRefusal he
      exact State.respondedWith_respond rfl (if_neg hok).symm hillegal
    | fault f => cases h

/-! ## The commands -/

section
variable {s t : State}

/-- `INIT` (40_system_access.md R101): its effects leave the interface alone. -/
theorem execInit_responded (h : execInit s = .next t) : s.respondedWith t 0 := by
  refine command_responded h (.get fun u hu => ?_)
  cases firstFailing 1 (configChecks u.cfg) with
  | some n => exact .raise _ _
  | none => exact .ite (.raise _ _) (.set (u.interface_initialised.trans hu) (.pure rfl))

theorem execWrreg_responded {reg : Nat} {data : Word} (h : execWrreg reg data s = .next t) : s.respondedWith t 0 := by
  refine command_responded h ((Internal.regOperand reg).andThen fun r => .get fun u hu => ?_)
  refine (Internal.require _ rfl).andThen fun _ => (Internal.require _ rfl).andThen fun _ => ?_
  exact (Internal.require _ rfl).andThen fun _ => .set ((u.interface_putReg r data).trans hu) (.pure rfl)

theorem execWrmem_responded {space : Nat} {index data : Word} (h : execWrmem space index data s = .next t) :
    s.respondedWith t 0 := by
  refine command_responded h ((Internal.cellOperand space index).andThen fun _ => .get fun _ _ => ?_)
  exact (Internal.require _ rfl).andThen fun _ => (Internal.storeCell _ _ _).andThen fun _ => .pure rfl

theorem execAnProc_responded {len : Word} (h : execAnProc len s = .next t) : s.respondedWith t 1 := by
  refine command_responded h (.get fun _ _ => (Internal.require _ rfl).andThen fun _ => .ifThen (.raise _ _) ?_)
  exact Internal.anLoad.andThen fun _ => Internal.anRun.andThen fun _ => .pure rfl

theorem execVSetRate_responded {v : Nat} {p : Word} (h : execVSetRate v p s = .next t) : s.respondedWith t 0 := by
  refine command_responded h ((Internal.requireVoice v).andThen fun _ => (Internal.require _ rfl).andThen fun _ => ?_)
  exact (Internal.voiceSetRate v p).andThen fun _ => .pure rfl

theorem execVSetWave_responded {v : Nat} {len : Word} (h : execVSetWave v len s = .next t) : s.respondedWith t 0 := by
  refine command_responded h ((Internal.requireVoice v).andThen fun _ => .get fun _ _ => ?_)
  exact (Internal.require _ rfl).andThen fun _ => (Internal.voiceSetWaveform v len).andThen fun _ => .pure rfl

theorem execPipeBlk_responded (h : execPipeBlk s = .next t) : s.respondedWith t 0 := by
  refine command_responded h (.andThen (Internal.modify fun u => u.interface_setCtrl _) fun _ => .get fun _ _ => ?_)
  exact (Internal.forFrom Internal.blockSample _ 0).andThen fun _ => .pure rfl

theorem execFpoll_responded (h : execFpoll s = .next t) : s.respondedWith t 2 :=
  command_responded h (.get fun u hu => .ite (.set ((u.interface_setFreq _).trans hu) (.pure rfl)) (.pure rfl))

/-- Every command responds as R86 counts its results. -/
theorem exec_responded {i : Instr} (h : exec i s = .next t) : s.respondedWith t (resultCount i) := by
  cases i with
  | nop => exact command_responded (lock := true) (need := .either) (body := pure []) h (.pure rfl)
  | init => exact execInit_responded h
  | rdreg reg => exact command_responded h ((Internal.regOperand reg).andThen fun _ => .get fun _ _ => .pure rfl)
  | wrreg reg data => exact execWrreg_responded h
  | rdmem space index =>
    exact command_responded h
      ((Internal.cellOperand space index).andThen fun _ => (Internal.loadCell _ _).andThen fun _ => .pure rfl)
  | wrmem space index data => exact execWrmem_responded h
  | envProc inst x =>
    exact command_responded h
      ((Internal.require _ rfl).andThen fun _ => (Internal.envProcess inst x).andThen fun _ => .pure rfl)
  | lpfProc x => exact command_responded h ((Internal.lpfProcess x).andThen fun _ => .pure rfl)
  | zdProc x => exact command_responded h ((Internal.zdProcess x).andThen fun _ => .pure rfl)
  | cdProc x => exact command_responded h ((Internal.cdProcess x).andThen fun _ => .pure rfl)
  | ctProc x => exact command_responded h ((Internal.ctProcess x).andThen fun _ => .pure rfl)
  | anProc len => exact execAnProc_responded h
  | vSetRate v period => exact execVSetRate_responded h
  | vSetWave v len => exact execVSetWave_responded h
  | vNext v =>
    exact command_responded h
      ((Internal.requireVoice v).andThen fun _ => (Internal.voiceNext v).andThen fun _ => .pure rfl)
  | engProc x => exact command_responded h ((Internal.engProcess x).andThen fun _ => .pure rfl)
  | pipeSmp x => exact command_responded h ((Internal.sampleStep x).andThen fun _ => .pure rfl)
  | pipeBlk => exact execPipeBlk_responded h
  | ctick c0 c1 c2 c3 =>
    exact command_responded h (.andThen (Internal.modify fun u => u.interface_setCtrl _) fun _ => .pure rfl)
  | fpoll => exact execFpoll_responded h

end

/-! ## The response word (R84) -/

/-- The response word has its status and its result count in the fields R84 gives them. -/
theorem Response.words_layout (r : Response) (h : r.results.length ≤ 4) :
    ∃ w, r.words = w :: r.results ∧ w.toNat / 2 ^ 24 = r.status.code ∧ w.toNat / 2 ^ 16 % 2 ^ 8 = r.results.length
      ∧ w.toNat % 2 ^ 16 = 0 := by
  have hcode : r.status.code ≤ 6 := by cases r.status <;> decide
  refine ⟨_, rfl, ?_⟩
  rw [BitVec.toNat_ofNat, Nat.mod_eq_of_lt (by omega)]
  omega

end Sys2Proof.Machine

open Sys2Proof Sys2Proof.Machine

/-- Settles O7: pseudocode does not touch the interface, so the response sent at its end is the only one. -/
theorem oneResponsePerCommand : Obligations.OneResponsePerCommand := by
  exact ⟨fun _ _ _ h => exec_responded h, Response.words_layout⟩
end

section
/-! SUPPORT. How the answer of a command is read off its pseudocode, and the operands and registers of the access commands
(spec/40_system_access.md R100, R105 to R108). -/

namespace Sys2Proof.Machine

/-! ## The answer of pseudocode, statement by statement (00_scope.md R14) -/

section
variable {α : Type} {x : M α} {f : α → M (List Word)} {s : State}

@[simp] theorem outcomeOf_pure (rs : List Word) (s : State) : outcomeOf (pure rs) s = .next (s.respond .ok rs) := rfl

@[simp] theorem outcomeOf_raiseFault (c : FaultCause) (info : Word) (s : State) :
    outcomeOf (raiseFault c info) s = .next ((s.recordFault c info).respond .fault []) := rfl

/-- A statement that leaves the state as it was can be passed over. -/
theorem outcomeOf_bind_of_ok {a : α} (h : x s = .ok a s) : outcomeOf (x >>= f) s = outcomeOf (f a) s := by
  unfold outcomeOf
  rw [M.bind_of_ok h]

/-- A statement that changes the state may be the last one before the result. -/
theorem outcomeOf_andThen_pure {t : State} {a : α} {rs : List Word} (h : x s = .ok a t) :
    outcomeOf (x >>= fun _ => pure rs) s = .next (t.respond .ok rs) := by
  unfold outcomeOf
  rw [M.bind_of_ok h]
  rfl

theorem outcomeOf_bind_of_refused {st : Status} {t : State} (h : x s = .error (.refused st) t) :
    outcomeOf (x >>= f) s = .next (s.respond st []) := by
  unfold outcomeOf
  rw [M.bind_of_error h]

theorem outcomeOf_require (b : Bool) (st : Status) (f : Unit → M (List Word)) (s : State) :
    outcomeOf (require b st >>= f) s = if b = true then outcomeOf (f ()) s else .next (s.respond st []) := by
  rcases require_cases b st s with ⟨hb, hok⟩ | ⟨hb, hrefused⟩
  · rw [if_pos hb, outcomeOf_bind_of_ok hok]
  · rw [if_neg (by simp [hb]), outcomeOf_bind_of_refused hrefused]

end

/-! ## Register operands and registers (R105, R106) -/

theorem regOperand_mapped {a : Nat} {r : Reg} (h : regOf a = some r) (s : State) : regOperand a s = .ok r s := by
  unfold regOperand
  rw [h]
  rfl

theorem ctlReservedClear_iff (w : Word) : ctlReservedClear w = true ↔ w.toNat < 4 := by
  unfold ctlReservedClear
  rw [beq_iff_eq]
  omega

/-- A word without reserved bits is what `CTL` reads as after it was written (R42). -/
theorem Ctl.word_ofWord {w : Word} (h : w.toNat < 4) : (Ctl.ofWord w).word = w := by
  obtain ⟨n, hn, rfl⟩ : ∃ n, n < 4 ∧ w = BitVec.ofNat 32 n := ⟨w.toNat, h, (BitVec.ofNat_toNat 32 w).symm⟩
  interval_cases n <;> rfl

/-- The register file (R106): after a write every register but the one written keeps its value. -/
theorem State.regWord_putReg {r : Reg} {w : Word} (s : State) (hw : r.access ≠ .ro) (hctl : r = .ctl → w.toNat < 4)
    (q : Reg) : (s.putReg r w).regWord q = if q = r then w else s.regWord q := by
  cases r with
  | cfgFs | cfgBlock | cfgWin | cfgHop | cfgNv | cfgRing | cfgHist | cfgWt => cases q <;> rfl
  | lpfDecay | env0Rise | env0Fall | env1Rise | env1Fall => cases q <;> rfl
  | ctl =>
    cases q with
    | ctl => exact Ctl.word_ofWord (hctl rfl)
    | _ => rfl
  | _ => exact absurd rfl hw

/-- No register is a part of a memory. -/
@[simp] theorem State.putReg_mem (s : State) (r : Reg) (w : Word) : (s.putReg r w).mem = s.mem := by cases r <;> rfl

/-- No memory is a part of a register. -/
@[simp] theorem State.regWord_setMem (s : State) (m : Memory) (r : Reg) : (s.setMem m).regWord r = s.regWord r := by
  cases r <;> rfl

/-- `WRREG` of a mapped register (R106): the access column, then the reserved bits of `CTL`, then the write. -/
theorem exec_wrreg_of_mapped {s : State} {a : Nat} {r : Reg} (w : Word) (hf : s.fault = 0) (h : regOf a = some r) :
    exec (.wrreg a w) s =
      if r.access = .ro ∨ r.access = .rwLock ∧ s.running = true then .next (s.respond .errAccess [])
      else if r = .ctl ∧ 4 ≤ w.toNat then .next (s.respond .errOperand [])
      else .next ((s.putReg r w).respond .ok []) := by
  have hexec : exec (.wrreg a w) s = execWrreg a w s := rfl
  rw [hexec, execWrreg, command_of_admitted (by simp [hf]) rfl, outcomeOf_bind_of_ok (regOperand_mapped h s),
    outcomeOf_bind_of_ok (M.get_apply s), outcomeOf_require, outcomeOf_require, outcomeOf_require,
    outcomeOf_andThen_pure (M.set_apply _ s)]
  have hro : (r.access != .ro) = true ↔ ¬ r.access = .ro := bne_iff_ne
  have hlock : (!(r.access == .rwLock && s.running)) = true ↔ ¬ (r.access = .rwLock ∧ s.running = true) := by
    simp [imp_iff_not_or]
  have hctl : (!(r == .ctl) || ctlReservedClear w) = true ↔ ¬ (r = .ctl ∧ 4 ≤ w.toNat) := by
    rw [Bool.or_eq_true, ctlReservedClear_iff]
    simp [imp_iff_not_or]
  simp only [hro, hlock, hctl, ite_not, ite_or]

/-! ## Cell operands (R107, R108) -/

theorem spaceOf_eq_none {n : Nat} (h : 12 < n) : spaceOf n = none := by
  obtain ⟨k, rfl⟩ := Nat.exists_eq_add_of_le' h
  rfl

section
variable {s : State} {n : Nat} {i : Word} {sp : Space}

theorem cellOperand_of_lt (h : spaceOf n = some sp) (hi : i.toNat < s.spaceSize sp) :
    cellOperand n i s = .ok (sp, i.toNat) s := by
  unfold cellOperand
  rw [h]
  exact if_pos hi

theorem cellOperand_of_le (h : spaceOf n = some sp) (hi : s.spaceSize sp ≤ i.toNat) :
    cellOperand n i s = .error (.refused .errOperand) s := by
  unfold cellOperand
  rw [h]
  exact if_neg (Nat.not_lt.2 hi)

theorem cellOperand_of_none (h : spaceOf n = none) : cellOperand n i s = .error (.refused .errOperand) s := by
  unfold cellOperand
  rw [h]

/-- A command on a cell that does not exist is refused, whatever it would do with the cell. -/
theorem command_of_noCell {lock : Bool} {f : Space × Nat → M (List Word)} (hlock : (lock || s.fault == 0) = true)
    (hr : s.running = true) (h : cellOperand n i s = .error (.refused .errOperand) s) :
    command lock .running (cellOperand n i >>= f) s = .next (s.respond .errOperand []) := by
  rw [command_of_admitted (need := .running) hlock hr, outcomeOf_bind_of_refused h]

/-- `RDMEM` of a cell that exists (R107). -/
theorem exec_rdmem_of_cell (hr : s.running = true) (h : spaceOf n = some sp) (hi : i.toNat < s.spaceSize sp) :
    exec (.rdmem n i) s = .next (s.respond .ok [s.peek sp i.toNat]) := by
  have hexec : exec (.rdmem n i) s = execRdmem n i s := rfl
  rw [hexec, execRdmem, command_of_admitted (need := .running) rfl hr, outcomeOf_bind_of_ok (cellOperand_of_lt h hi),
    outcomeOf_bind_of_ok (loadCell_of_lt hi), outcomeOf_pure]

/-- `WRMEM` of a cell that exists (R108): it is written if the host may write its space. -/
theorem exec_wrmem_of_cell (w : Word) (hs : s.ready) (h : spaceOf n = some sp) (hi : i.toNat < s.spaceSize sp) :
    exec (.wrmem n i w) s = if s.ctl.hostWrites sp = true then .next ((s.poke sp i.toNat w).respond .ok [])
      else .next (s.respond .errAccess []) := by
  have hexec : exec (.wrmem n i w) s = execWrmem n i w s := rfl
  rw [hexec, execWrmem, workCommand_of_ready hs, outcomeOf_bind_of_ok (cellOperand_of_lt h hi),
    outcomeOf_bind_of_ok (M.get_apply s), outcomeOf_require, outcomeOf_andThen_pure (storeCell_of_lt hi)]

end

/-- The spaces the host may write (R61, R108). -/
theorem Ctl.hostWrites_iff (c : Ctl) (sp : Space) :
    c.hostWrites sp = true ↔ sp = .wstage ∨ sp = .inBuf ∨ (sp = .wmb ∧ c.anAuto = false) := by
  cases sp <;> simp [Ctl.hostWrites]

end Sys2Proof.Machine

open Sys2Proof Sys2Proof.Machine

/-- Settles O14: both commands pass every admission check, and an unmapped address is refused. -/
theorem nopAndReadRegister : Obligations.NopAndReadRegister := by
  intro s
  refine ⟨?_, fun a r h => ?_, fun a h => command_of_unmapped rfl h⟩
  · have hexec : exec .nop s = command true .either (pure []) s := rfl
    rw [hexec, command_of_admitted rfl rfl, outcomeOf_pure]
  · have hexec : exec (.rdreg a) s = execRdreg a s := rfl
    rw [hexec, execRdreg, command_of_admitted rfl rfl, outcomeOf_bind_of_ok (regOperand_mapped h s),
      outcomeOf_bind_of_ok (M.get_apply s), outcomeOf_pure]

/-- Settles O18: the cell operand decides whether there is a cell to read. -/
theorem readMemory : Obligations.ReadMemory := by
  intro s n i hr
  have hsize := spaceSize_of_running hr
  refine ⟨fun sp hsp hi => ?_, fun sp hsp hi => ?_, fun hn => ?_⟩
  · rw [← hsize] at hi
    exact exec_rdmem_of_cell hr hsp hi
  · rw [← hsize] at hi
    exact command_of_noCell rfl hr (cellOperand_of_le hsp hi)
  · exact command_of_noCell rfl hr (cellOperand_of_none (spaceOf_eq_none hn))

/-- Settles O19: the cell operand first, then the spaces of the host; the frame is that of one written cell. -/
theorem writeMemory : Obligations.WriteMemory := by
  intro s n i w hs
  have hready := hs
  obtain ⟨hr, hf⟩ := hs
  have hsize := spaceSize_of_running hr
  have hunlocked : (false || s.fault == 0) = true := by simp [hf]
  refine ⟨fun sp hsp hi hwrites => ⟨?_, State.peek_poke_same sp i.toNat w, fun q k hne => ?_, fun r _ => ?_⟩,
    fun sp hsp hi hnot => ?_, fun sp hsp hi => ?_, fun hn => ?_⟩
  · rw [← hsize] at hi
    rw [exec_wrmem_of_cell w hready hsp hi, if_pos ((s.ctl.hostWrites_iff sp).2 hwrites)]
  · exact s.peek_poke_ne w (not_and_or.1 hne)
  · exact s.regWord_setMem _ r
  · rw [← hsize] at hi
    rw [exec_wrmem_of_cell w hready hsp hi, if_neg (mt (s.ctl.hostWrites_iff sp).1 hnot)]
  · rw [← hsize] at hi
    exact command_of_noCell hunlocked hr (cellOperand_of_le hsp hi)
  · exact command_of_noCell hunlocked hr (cellOperand_of_none (spaceOf_eq_none hn))

/-- Settles O17, from what WRREG does with a mapped register and from the register file. -/
theorem writeRegister : Obligations.WriteRegister := by
  intro s a r w hf ha
  have hexec := exec_wrreg_of_mapped w hf ha
  refine ⟨fun hro hlock hctl => ⟨?_, ?_, fun q hq => ?_, fun sp i => ?_⟩, fun hro => ?_, fun hlock hr => ?_,
    fun hctl hbits => ?_⟩
  · rw [hexec, if_neg (not_or.2 ⟨hro, hlock⟩), if_neg (fun h => absurd (hctl h.1) (Nat.not_lt.2 h.2))]
  · rw [s.regWord_putReg hro hctl, if_pos rfl]
  · rw [s.regWord_putReg hro hctl, if_neg hq]
  · rw [State.peek, State.putReg_mem, State.peek]
  · rw [hexec, if_pos (.inl hro)]
  · rw [hexec, if_pos (.inr ⟨hlock, hr⟩)]
  · rw [hexec, if_neg (by simp [hctl, Reg.access]), if_pos ⟨hctl, hbits⟩]
end

section
/-! SUPPORT. INIT: the checks of the configuration and the state it creates (spec/40_system_access.md R101 to R104). -/

namespace Sys2Proof.Machine

/-! ## The nine checks (R102) -/

/-- The first check that fails, when those before it hold. -/
theorem firstFailing_eq_some {bs : List Bool} {j : Nat} (k : Nat) (hj : bs.getD j true = false)
    (hbefore : ∀ m, m < j → bs.getD m true = true) : firstFailing k bs = some (k + j) := by
  induction bs generalizing j k with
  | nil => simp at hj
  | cons b bs ih =>
    cases j with
    | zero => rw [firstFailing, if_neg (by simpa using hj), Nat.add_zero]
    | succ j =>
      have hb : b = true := hbefore 0 (Nat.succ_pos j)
      rw [firstFailing, if_pos hb, ih (k + 1) hj fun m hm => hbefore (m + 1) (Nat.succ_lt_succ hm)]
      congr 1
      omega

theorem firstFailing_eq_none {bs : List Bool} (k : Nat) (h : ∀ j, bs.getD j true = true) : firstFailing k bs = none := by
  induction bs generalizing k with
  | nil => rfl
  | cons b bs ih =>
    have hb : b = true := h 0
    rw [firstFailing, if_pos hb, ih (k + 1) fun j => h (j + 1)]

theorem isInf_iff (a : F32) : isInf a = true ↔ a = plusInf ∨ a = fneg plusInf := by
  have hplus : plusInf.toNat = 0x7F800000 := rfl
  have hminus : (fneg plusInf).toNat = 0xFF800000 := by decide
  have hlt := a.isLt
  rw [← BitVec.toNat_inj, ← BitVec.toNat_inj, hplus, hminus, isInf, Bool.and_eq_true, beq_iff_eq, beq_iff_eq, fExp, fFrac]
  omega

/-- No number is below minus infinity, so a positive infinity is the other one (R9). -/
theorem isInf_iff_of_positive {a : F32} (h : fgt a pzero = true) : isInf a = true ↔ a = plusInf := by
  rw [isInf_iff, or_iff_left]
  rintro rfl
  exact absurd h (by decide)

theorem sizeOk_iff (w : Word) : sizeOk w = true ↔ 1 ≤ w.toNat ∧ w.toNat ≤ 2 ^ 24 := by
  rw [sizeOk, Bool.and_eq_true, decide_eq_true_iff, decide_eq_true_iff, maxSize]

theorem isPow2_iff (n : Nat) : isPow2 n = true ↔ ∃ b, n = 2 ^ b := by
  rw [isPow2, Bool.and_eq_true, decide_eq_true_iff, beq_iff_eq]
  constructor
  · rintro ⟨-, h⟩
    exact ⟨Nat.log2 n, h.symm⟩
  · rintro ⟨b, rfl⟩
    exact ⟨Nat.one_le_two_pow, by rw [Nat.log2_two_pow]⟩

/-- Each entry of the list of checks is the check of that number. -/
theorem Cfg.check_succ_iff (c : Cfg) (j : Nat) : c.check (j + 1) ↔ (configChecks c).getD j true = true := by
  match j with
  | 0 =>
    show fgt c.fs pzero = true ∧ c.fs ≠ plusInf ↔ (fgt c.fs pzero && !isInf c.fs) = true
    rw [Bool.and_eq_true, Bool.not_eq_true', ← Bool.not_eq_true]
    exact and_congr_right fun h => not_congr (isInf_iff_of_positive h).symm
  | 1 => exact (sizeOk_iff c.block).symm
  | 2 =>
    show (∃ b : Nat, c.win.toNat = 2 ^ b) ∧ 2 ≤ c.win.toNat ∧ c.win.toNat ≤ 2 ^ 24
      ↔ (isPow2 c.win.toNat && decide (2 ≤ c.win.toNat) && decide (c.win.toNat ≤ maxSize)) = true
    rw [Bool.and_eq_true, Bool.and_eq_true, isPow2_iff, decide_eq_true_iff, decide_eq_true_iff, and_assoc, maxSize]
  | 3 => exact (sizeOk_iff c.hop).symm
  | 4 =>
    show 1 ≤ c.nv.toNat ∧ c.nv.toNat ≤ 256 ↔ (decide (1 ≤ c.nv.toNat) && decide (c.nv.toNat ≤ 256)) = true
    rw [Bool.and_eq_true, decide_eq_true_iff, decide_eq_true_iff]
  | 5 => exact (sizeOk_iff c.ring).symm
  | 6 => exact (sizeOk_iff c.hist).symm
  | 7 => exact (sizeOk_iff c.wt).symm
  | 8 => exact (decide_eq_true_iff (p := c.win.toNat + c.hop.toNat ≤ c.hist.toNat)).symm
  | j + 9 => exact iff_of_true trivial rfl

theorem firstFailing_of_check {c : Cfg} {n : Nat} (hn : 1 ≤ n) (hfails : ¬ c.check n) (hbefore : ∀ m, m < n → c.check m) :
    firstFailing 1 (configChecks c) = some n := by
  obtain ⟨j, rfl⟩ := Nat.exists_eq_add_of_le' hn
  rw [firstFailing_eq_some 1 (Bool.eq_false_of_not_eq_true (mt (c.check_succ_iff j).2 hfails)) fun m hm =>
    (c.check_succ_iff m).1 (hbefore (m + 1) (Nat.succ_lt_succ hm)), Nat.add_comm]

theorem firstFailing_of_legal {c : Cfg} (h : ∀ n, c.check n) : firstFailing 1 (configChecks c) = none :=
  firstFailing_eq_none 1 fun j => (c.check_succ_iff j).1 (h (j + 1))

/-! ## The three ends of INIT (R101) -/

theorem State.recordFault_of_none {s : State} (h : s.fault = 0) (c : FaultCause) (i : Word) :
    s.recordFault c i = s.setFault c.code i := if_pos h

/-- INIT of a stopped block without a fault: a fault for the first check that fails, else a fault when the words asked for
exceed the capacity, else the block it creates. -/
theorem exec_init_of_stopped {s : State} (hf : s.fault = 0) (hr : s.running = false) :
    exec .init s = (firstFailing 1 (configChecks s.cfg)).elim
      (if s.arenaCap < s.cfg.total then .next ((s.setFault 1 (u32 (min s.cfg.total (2 ^ 32 - 1)))).respond .fault [])
        else .next (s.initialised.respond .ok []))
      (fun n => .next ((s.setFault 2 (u32 n)).respond .fault [])) := by
  have hexec : exec .init s = execInit s := rfl
  rw [hexec, execInit, command_of_admitted (need := .stopped) (by simp [hf]) (by simp [RunNeed.met, hr]),
    outcomeOf_bind_of_ok (M.get_apply s)]
  cases firstFailing 1 (configChecks s.cfg) with
  | some n => simp only [outcomeOf_raiseFault, s.recordFault_of_none hf, FaultCause.code, Option.elim_some]
  | none =>
    by_cases hcap : s.arenaCap < s.cfg.total
    · simp only [if_pos hcap, outcomeOf_raiseFault, s.recordFault_of_none hf, FaultCause.code, Option.elim_none]
    · simp only [if_neg hcap, outcomeOf_andThen_pure (M.set_apply _ s), Option.elim_none]

/-! ## The block INIT creates (R104) -/

/-- The bank of every voice after INIT: the active length is new below `CFG.NV`, and nothing else. -/
theorem State.voice_created_eq (s : State) (amp : F32) (v : Nat) :
    (s.created amp).voice v
      = if v < 256 ∧ v < s.cfg.nv.toNat then { s.voice v with actLen := s.cfg.wt } else s.voice v := by
  have hvoices : (s.created amp).voices = initialVoices s.cfg s.voices := rfl
  unfold State.voice
  rw [hvoices, initialVoices]
  by_cases hv : v < 256
  · by_cases hnv : v < s.cfg.nv.toNat <;> simp [hv, hnv]
  · simp [hv]

/-- `STATUS` is the only register that shows whether the block runs. -/
theorem State.regWord_setRunning (s : State) (x : Bool) {r : Reg} (h : r ≠ .status) :
    (s.setRunning x).regWord r = s.regWord r := by
  cases r with
  | status => exact absurd rfl h
  | _ => rfl

/-- The mix amplitude alone is written. -/
theorem State.regWord_setEng_amp {s : State} {x : Eng} (hrr : x.rr = s.eng.rr) {r : Reg} (h : r ≠ .engAmp) :
    (s.setEng x).regWord r = s.regWord r := by
  cases r with
  | engAmp => exact absurd rfl h
  | engRr => exact hrr
  | _ => rfl

/-- New voice banks are seen in the voice registers alone. -/
theorem State.regWord_setVoices {s : State} {x : Vector Voice 256} {r : Reg}
    (h : ∀ v j, r = .voice v j → ((s.setVoices x).voice v).regWord j = (s.voice v).regWord j) :
    (s.setVoices x).regWord r = s.regWord r := by
  cases r with
  | voice v j => exact h v j rfl
  | _ => rfl

/-- Of the registers INIT writes `STATUS`, the mix amplitude and the active lengths. -/
theorem State.regWord_created {s : State} (amp : F32) {r : Reg} (hstatus : r ≠ .status) (hamp : r ≠ .engAmp)
    (hlen : ∀ v, v < s.cfg.nv.toNat → r ≠ .voice v .actLen) : (s.created amp).regWord r = s.regWord r := by
  rw [State.created, State.regWord_setRunning _ _ hstatus, State.regWord_setEng_amp (by simp) hamp,
    State.regWord_setVoices, State.regWord_setMem]
  rintro v j rfl
  show ((s.created amp).voice v).regWord j = (s.voice v).regWord j
  rw [s.voice_created_eq]
  split
  case isTrue hv =>
    cases j with
    | actLen => exact absurd rfl (hlen v hv.2)
    | _ => rfl
  case isFalse => rfl

/-- Only the three tables of a new block list cells. -/
theorem State.peek_created (s : State) (amp : F32) {sp : Space} (i : Nat) (hwin : sp ≠ .anWin) (htwr : sp ≠ .anTwr)
    (htwi : sp ≠ .anTwi) : (s.created amp).peek sp i = pzero := by
  cases sp with
  | anWin => exact absurd rfl hwin
  | anTwr => exact absurd rfl htwr
  | anTwi => exact absurd rfl htwi
  | _ => rfl

/-- A table reads as its function (R104). -/
theorem cellAt_table {f : Nat → Word} {n i : Nat} (h : i < n) : cellAt (tableCells f n 0) i = f i := by
  rw [cellAt_tableCells, if_pos (by omega)]

end Sys2Proof.Machine

open Sys2Proof Sys2Proof.Machine

/-- Settles O21: the list of checks agrees with R102 number by number, and the capacity comes after it. -/
theorem initFaults : Obligations.InitFaults := by
  intro s hf hr total
  have hexec := exec_init_of_stopped hf hr
  refine ⟨fun n hn hfails hbefore => ?_, fun hlegal hcap => ?_⟩
  · rw [hexec, firstFailing_of_check hn hfails hbefore, Option.elim_some]
  · have hcap' : s.arenaCap < s.cfg.total := hcap
    rw [hexec, firstFailing_of_legal hlegal, Option.elim_none, if_pos hcap']
    rfl

/-- Settles O20: the block INIT creates, for whatever amplitude the division gives. -/
theorem initCompletes : Obligations.InitCompletes := by
  intro s hf hr hlegal hfits
  have hfits' : ¬ s.arenaCap < s.cfg.total := Nat.not_lt.2 hfits
  have hnv : s.cfg.nv.toNat ≤ 256 := (hlegal 5).2
  refine ⟨s.created (fdiv fOne (u2f s.cfg.nv)), ?_, rfl, fun i hi => cellAt_table hi,
    fun k hk => ⟨cellAt_table hk, cellAt_table hk⟩, fun sp i hwin htwr htwi => s.peek_created _ i hwin htwr htwi,
    initialCells_wf _ _ _ _ _, fun v hv => ?_, ?_, fun r hr => ?_, ?_, ?_⟩
  · rw [exec_init_of_stopped hf hr, firstFailing_of_legal hlegal, Option.elim_none, if_neg hfits',
      s.initialised_eq_created]
  · rw [s.voice_created_eq, if_pos ⟨by omega, hv⟩]
  · simp [State.created]
  · obtain ⟨hstatus, hamp, hlen⟩ : r ≠ .status ∧ r ≠ .engAmp ∧ ∀ v, v < s.cfg.nv.toNat → r ≠ .voice v .actLen := by
      simpa using hr
    exact State.regWord_created _ hstatus hamp hlen
  · simp [State.created]
  · simp [State.created]
end

section
/-! SUPPORT. Not-a-number and the sign in binary32 arithmetic (00_scope.md R7 to R9). -/

namespace Sys2Proof.Machine

/-! ## Operands that are not a number (R8, R9) -/

theorem isNaN_qNaN : isNaN qNaN = true := by decide

theorem fadd_of_nan {a b : F32} (h : isNaN a = true ∨ isNaN b = true) : fadd a b = qNaN :=
  if_pos (Bool.or_eq_true_iff.2 h)

theorem fmul_of_nan {a b : F32} (h : isNaN a = true ∨ isNaN b = true) : fmul a b = qNaN :=
  if_pos (Bool.or_eq_true_iff.2 h)

/-- The comparison with a number that is none is false (R9). -/
theorem fgt_of_nan {a b : F32} (h : isNaN b = true) : fgt a b = false := by
  unfold fgt ordered
  rw [h, Bool.not_true, Bool.and_false, Bool.false_and]

theorem flt_of_nan {a b : F32} (h : isNaN b = true) : flt a b = false := by
  unfold flt ordered
  rw [h, Bool.not_true, Bool.and_false, Bool.false_and]

/-! ## The other sign (R7) -/

theorem fSign_eq_msb (a : F32) : fSign a = a.msb := (BitVec.msb_eq_decide a).symm

theorem fSign_fneg (a : F32) : fSign (fneg a) = !fSign a := by
  rw [fSign_eq_msb, fSign_eq_msb, fneg, BitVec.msb_xor, show (0x80000000 : F32).msb = true by decide, Bool.xor_true]

/-- All bits but the sign stay. -/
theorem fneg_toNat_mod (a : F32) : (fneg a).toNat % 2 ^ 31 = a.toNat % 2 ^ 31 := by
  unfold fneg
  rw [BitVec.toNat_xor, Nat.xor_mod_two_pow]
  exact Nat.xor_zero _

theorem fExp_fneg (a : F32) : fExp (fneg a) = fExp a := by
  have h := fneg_toNat_mod a
  unfold fExp
  omega

theorem fFrac_fneg (a : F32) : fFrac (fneg a) = fFrac a := by
  have h := fneg_toNat_mod a
  unfold fFrac
  omega

theorem isNaN_fneg (a : F32) : isNaN (fneg a) = isNaN a := by rw [isNaN, fExp_fneg, fFrac_fneg, isNaN]
theorem isInf_fneg (a : F32) : isInf (fneg a) = isInf a := by rw [isInf, fExp_fneg, fFrac_fneg, isInf]
theorem isZero_fneg (a : F32) : isZero (fneg a) = isZero a := by rw [isZero, fExp_fneg, fFrac_fneg, isZero]

theorem fsub_of_nan {a b : F32} (h : isNaN a = true ∨ isNaN b = true) : fsub a b = qNaN :=
  fadd_of_nan (by rwa [isNaN_fneg])

/-- A pattern no greater than that of infinity, with the sign bit set, is a number of at most zero. -/
theorem fle_withSign_neg {b : Nat} (h : b ≤ 0x7F800000) : fle (withSign true b) pzero = true := by
  have hbits : (withSign true b).toNat = b + 2 ^ 31 := by
    unfold withSign
    rw [if_pos rfl, BitVec.toNat_ofNat, Nat.mod_eq_of_lt (by omega)]
  have hsign : fSign (withSign true b) = true := by
    unfold fSign
    rw [hbits, decide_eq_true_iff]
    omega
  have hnumber : isNaN (withSign true b) = false := by
    unfold isNaN fExp fFrac
    rw [hbits, Bool.and_eq_false_iff, beq_eq_false_iff_ne, bne_eq_false_iff_eq]
    omega
  have hvalue : fUnits (withSign true b) ≤ fUnits pzero := by
    rw [fUnits, if_pos hsign, show fUnits pzero = 0 by decide]
    omega
  unfold fle ordered
  rw [hnumber, show isNaN pzero = false by decide, decide_eq_true hvalue]
  rfl

/-- The product of a number that is not zero and its negative has the sign bit set (R8). -/
theorem fmul_fneg_self {x : F32} (hnan : isNaN x = false) (hzero : isZero x = false) :
    ∃ b, b ≤ 0x7F800000 ∧ fmul (fneg x) x = withSign true b := by
  have hsigns : (fSign (fneg x) != fSign x) = true := by rw [fSign_fneg]; cases fSign x <;> rfl
  unfold fmul
  rw [hsigns, isNaN_fneg, isInf_fneg, isZero_fneg, hnan, hzero, Bool.or_self, Bool.or_self]
  cases isInf x with
  | true => exact ⟨_, le_rfl, rfl⟩
  | false => exact ⟨_, Nat.min_le_right _ _, rfl⟩

end Sys2Proof.Machine
end

section
/-! SUPPORT. ENV.PROC, LPF.PROC, ZD.PROC and CD.PROC in a ready block (41_filters.md R120 to R122, 42_cycle.md R144). -/

namespace Sys2Proof.Machine

theorem Env.next_value (e : Env) (x : F32) : (e.next x).value
    = fadd e.value (fmul (if fgt x e.value = true then e.rise else e.fall) (fsub x e.value)) := rfl

theorem Lpf.next_value (f : Lpf) (x : F32) : (f.next x).value
    = fadd f.value (fmul f.decay (fsub (fmul fHalf (fadd x f.prev)) f.value)) := rfl

/-- A statement that changes the state may be the last one before a result made from its own. -/
theorem outcomeOf_map_of_ok {α : Type} {x : M α} {g : α → List Word} {s t : State} {a : α} (h : x s = .ok a t) :
    outcomeOf (x >>= fun a => pure (g a)) s = .next (t.respond .ok (g a)) := by
  unfold outcomeOf
  rw [M.bind_of_ok h]
  rfl

section
variable {s : State} (hs : s.ready)
include hs

/-- ENV.PROC (R120): envelope 0 or 1 takes the sample; there is no other. -/
theorem exec_envProc_of_ready (inst : Nat) (x : F32) :
    exec (.envProc inst x) s =
      if inst ≤ 1 then .next ((s.setEnv inst ((s.env inst).next x)).respond .ok [((s.env inst).next x).value])
      else .next (s.respond .errOperand []) := by
  have hexec : exec (.envProc inst x) s = execEnvProc inst x s := rfl
  rw [hexec, execEnvProc, workCommand_of_ready hs, outcomeOf_require, outcomeOf_map_of_ok (envProcess_apply inst x s)]
  simp only [decide_eq_true_eq]

theorem exec_lpfProc_of_ready (x : F32) :
    exec (.lpfProc x) s = .next ((s.setLpf (s.lpf.next x)).respond .ok [(s.lpf.next x).value]) := by
  have hexec : exec (.lpfProc x) s = execLpfProc x s := rfl
  rw [hexec, execLpfProc, workCommand_of_ready hs, outcomeOf_map_of_ok (lpfProcess_apply x s)]

theorem exec_zdProc_of_ready (x : F32) :
    exec (.zdProc x) s = .next ((s.setZdPrev x).respond .ok [boolWord (crossesZero x s.zdPrev)]) := by
  have hexec : exec (.zdProc x) s = execZdProc x s := rfl
  rw [hexec, execZdProc, workCommand_of_ready hs, outcomeOf_map_of_ok (zdProcess_apply x s)]

theorem exec_cdProc_of_ready (x : F32) :
    exec (.cdProc x) s
      = .next ((s.detect x).1.respond .ok [(s.detect x).2.length, boolWord (s.detect x).2.start]) := by
  have hexec : exec (.cdProc x) s = execCdProc x s := rfl
  rw [hexec, execCdProc, workCommand_of_ready hs, outcomeOf_map_of_ok (cdProcess_apply x s)]

end

end Sys2Proof.Machine

open Sys2Proof Sys2Proof.Machine

/-- Settles O22: the update of the envelope is `Env.next`. -/
theorem envelopeFollows : Obligations.EnvelopeFollows := by
  intro s inst x hs
  refine ⟨fun hinst => ?_, fun hinst => ?_⟩
  · rw [exec_envProc_of_ready hs, if_pos hinst]
    rfl
  · rw [exec_envProc_of_ready hs, if_neg (Nat.not_le.2 hinst)]

/-- Settles O23: the update of the filter is `Lpf.next`. -/
theorem lowPassFilters : Obligations.LowPassFilters := by
  intro s x hs
  exact exec_lpfProc_of_ready hs x

/-- Settles O24: the decision is `crossesZero`, and a product with the sign bit set is at most zero. -/
theorem zeroCrossingDetected : Obligations.ZeroCrossingDetected := by
  refine ⟨fun s x hs => exec_zdProc_of_ready hs x, fun s x hs hnan hzero hprev => ?_⟩
  obtain ⟨b, hb, hproduct⟩ := fmul_fneg_self hnan hzero
  have hcross : crossesZero (fneg x) s.zdPrev = true := by
    rw [crossesZero, hprev, hproduct]
    exact fle_withSign_neg hb
  rw [exec_zdProc_of_ready hs, hcross]
  rfl
end

section
/-! SUPPORT. Once a NaN, always a NaN: the envelopes, the filter and the gates (70_reset_and_hazards.md R289). -/

namespace Sys2Proof.Machine

/-- Every operation of the update passes a NaN on (41_filters.md R120 (b)). -/
theorem Env.next_value_of_nan {e : Env} {x : F32} (h : isNaN x = true ∨ isNaN e.value = true) :
    (e.next x).value = qNaN := by
  rw [Env.next_value, fsub_of_nan h, fmul_of_nan (.inr isNaN_qNaN), fadd_of_nan (.inr isNaN_qNaN)]

/-- Every operation of the update passes a NaN on (R121 (d)). -/
theorem Lpf.next_value_of_nan {f : Lpf} {x : F32} (h : isNaN x = true ∨ isNaN f.prev = true ∨ isNaN f.value = true) :
    (f.next x).value = qNaN := by
  have hdistance : fsub (fmul fHalf (fadd x f.prev)) f.value = qNaN := by
    rcases or_assoc.2 h with hin | hvalue
    · rw [fadd_of_nan hin, fmul_of_nan (.inr isNaN_qNaN), fsub_of_nan (.inl isNaN_qNaN)]
    · exact fsub_of_nan (.inr hvalue)
  rw [Lpf.next_value, hdistance, fmul_of_nan (.inr isNaN_qNaN), fadd_of_nan (.inr isNaN_qNaN)]

/-! ## The gates (42_cycle.md R141 to R143) -/

theorem highNext_of_nan {he : F32} (h : isNaN he = true) (g : Gate) (v : F32) : highNext g v he = g := by
  cases g <;> simp [highNext, fgt_of_nan h, flt_of_nan h]

theorem lowNext_of_nan {le : F32} (h : isNaN le = true) (g : Gate) (v : F32) : lowNext g v le = g := by
  cases g <;> simp [lowNext, fgt_of_nan h, flt_of_nan h]

theorem gateRose_self (g : Gate) : gateRose g g = false := by cases g <;> rfl

/-- Against envelopes that are NaN no gate moves, and none rises. -/
theorem gateStep_of_nan {he le : F32} (hhe : isNaN he = true) (hle : isNaN le = true) (c : Cd) (v : F32) :
    gateStep c v he le = (c, false, false) := by
  unfold gateStep
  simp only [highNext_of_nan hhe, lowNext_of_nan hle, gateRose_self]

/-- With no gate risen the sample is counted, and nothing else. -/
theorem cycleStep_of_noRise (c : Cd) : cycleStep c false false = ({ c with count := satInc c.count }, false) := by
  unfold cycleStep
  cases c.cycle <;> rfl

/-- The detector with both envelopes NaN: the sample is counted, and no start is reported. -/
theorem State.detect_of_nan {s : State} (h0 : isNaN s.env0.value = true) (h1 : isNaN s.env1.value = true) (x : F32) :
    (s.detect x).1.cd = { s.cd with count := satInc s.cd.count }
      ∧ (s.detect x).2 = { length := s.cd.length, start := false } := by
  have hnext : ∀ {e : Env} (v : F32), isNaN e.value = true → isNaN (e.next v).value = true := fun v h => by
    rw [Env.next_value_of_nan (.inr h), isNaN_qNaN]
  unfold State.detect
  simp only [gateStep_of_nan (hnext _ h0) (hnext _ h1), cycleStep_of_noRise, State.setCd_cd, and_self]

end Sys2Proof.Machine

open Sys2Proof Sys2Proof.Machine

/-- Settles O25: the updates pass a NaN on, and comparisons with a NaN move no gate. -/
theorem nanIsSticky : Obligations.NanIsSticky := by
  refine ⟨fun e x h => Env.next_value_of_nan h, fun f x h => Lpf.next_value_of_nan h, fun s t x hs h0 h1 hexec => ?_⟩
  obtain ⟨hcd, hinfo⟩ := State.detect_of_nan h0 h1 x
  rw [exec_cdProc_of_ready hs, hinfo] at hexec
  cases hexec
  rw [State.respond_cd, hcd]
  exact ⟨rfl, rfl, rfl, rfl, State.answered_respond_iff.2 ⟨s.detect_resp x, rfl, rfl⟩⟩
end

section
/-! SUPPORT. Frames: the cells and the registers that a command may write, however it ends. -/

namespace Sys2Proof.Machine

/-! ## Frames of states -/

/-- `t` differs from `s` at most in the cells of which `m` holds and the registers of which `q` holds. -/
structure State.Within (s t : State) (m : Space → Nat → Prop) (q : Reg → Prop) : Prop where
  cells : s.sameMemoryBut t m
  registers : s.sameRegistersBut t q

theorem State.sameMemoryBut_of_mem {s t : State} (m : Space → Nat → Prop) (h : t.mem = s.mem) :
    s.sameMemoryBut t m := fun _ _ _ => by rw [State.peek, h, State.peek]

theorem State.Within.refl (s : State) (m : Space → Nat → Prop) (q : Reg → Prop) : s.Within s m q :=
  ⟨fun _ _ _ => rfl, fun _ _ => rfl⟩

/-- With no cell that may differ, the memories are the same. -/
theorem State.Within.sameMemory {s t : State} {q : Reg → Prop} (h : s.Within t (fun _ _ => False) q) :
    s.sameMemory t := fun sp i => h.cells sp i id

/-- A response is no register and no memory. -/
theorem State.regWord_respond (s : State) (st : Status) (rs : List Word) (r : Reg) :
    (s.respond st rs).regWord r = s.regWord r := by cases r <;> rfl

theorem State.Within.respond {s t : State} {m : Space → Nat → Prop} {q : Reg → Prop} (h : s.Within t m q)
    (st : Status) (rs : List Word) : s.Within (t.respond st rs) m q :=
  ⟨h.cells, fun r hr => (t.regWord_respond st rs r).trans (h.registers r hr)⟩

namespace State.sameRegistersBut
variable {s t u : State} {p q : Reg → Prop}

theorem mono (h : s.sameRegistersBut t p) (hpq : ∀ r, p r → q r) : s.sameRegistersBut t q :=
  fun r hr => h r (mt (hpq r) hr)

/-- A further update, of registers that may differ anyway. -/
theorem andThen (h : s.sameRegistersBut t q) (h' : t.sameRegistersBut u p) (hpq : ∀ r, p r → q r) :
    s.sameRegistersBut u q :=
  fun r hr => (h' r (mt (hpq r) hr)).trans (h r hr)

end State.sameRegistersBut

/-- A command stays within a frame when its own pseudocode does, in a state that admission lets through, both where it
ends and where it stops: a refusal leaves the state as it was. -/
theorem command_within {lock : Bool} {need : RunNeed} {body : M (List Word)} {s t : State} {m : Space → Nat → Prop}
    {q : Reg → Prop} (h : command lock need body s = .next t)
    (hbody : need.met s.running = true → Leaves (s.Within · m q) body s (fun _ u => s.Within u m q)) :
    s.Within t m q := by
  have hself := State.Within.refl s m q
  have hleaves : Leaves (s.Within · m q) (do admission lock need; body) s (fun _ u => s.Within u m q) := by
    rcases admit_cases lock need s with ⟨-, ha⟩ | ⟨-, -, ha⟩ | ⟨-, hmet, ha⟩
    · exact .of_error (M.bind_of_error ha) hself
    · exact .of_error (M.bind_of_error ha) hself
    · exact .bind_ok ha (hbody hmet)
  rcases outcomeOf_cases (do admission lock need; body) s with
    ⟨_, u, hu, ho⟩ | ⟨u, hu, ho⟩ | ⟨_, _, -, ho⟩ | ⟨_, _, -, ho⟩
  all_goals
    rw [command, ho] at h
    cases h
  case inl => exact (hleaves.post hu).respond _ _
  case inr.inl => exact (hleaves.stop hu).respond _ _
  case inr.inr.inl => exact hself.respond _ _

/-- The same for a working command, whose pseudocode runs in a running block alone. -/
theorem workCommand_within {body : M (List Word)} {s t : State} {m : Space → Nat → Prop} {q : Reg → Prop}
    (h : workCommand body s = .next t)
    (hbody : s.running = true → Leaves (s.Within · m q) body s (fun _ u => s.Within u m q)) : s.Within t m q :=
  command_within (need := .running) h hbody

/-! ## The registers an update of the state writes -/

section
variable (s : State)

theorem State.setZdPrev_registers (x : F32) : s.sameRegistersBut (s.setZdPrev x) (· = .zdPrev) := by
  intro r hr
  cases r with
  | zdPrev => exact absurd rfl hr
  | _ => rfl

theorem State.setCd_registers (x : Cd) :
    s.sameRegistersBut (s.setCd x) (· ∈ [.cdGates, .cdCount, .cdLength]) := by
  intro r hr
  cases r with
  | cdGates | cdCount | cdLength => simp at hr
  | _ => rfl

theorem State.setCt_registers (x : Ct) :
    s.sameRegistersBut (s.setCt x) (· ∈ [.ctWr, .ctLastZc, .ctCycStart, .ctCycEnd, .ctCycLen]) := by
  intro r hr
  cases r with
  | ctWr | ctLastZc | ctCycStart | ctCycEnd | ctCycLen => simp at hr
  | _ => rfl

/-- A sample of the filter leaves the coefficient alone. -/
theorem State.setLpf_registers (x : F32) :
    s.sameRegistersBut (s.setLpf (s.lpf.next x)) (· ∈ [.lpfValue, .lpfPrev]) := by
  intro r hr
  cases r with
  | lpfValue | lpfPrev => simp at hr
  | _ => rfl

/-- A sample of an envelope leaves the rates alone. -/
theorem State.setEnv0_registers (x : F32) : s.sameRegistersBut (s.setEnv0 (s.env0.next x)) (· = .env0Value) := by
  intro r hr
  cases r with
  | env0Value => exact absurd rfl hr
  | _ => rfl

theorem State.setEnv1_registers (x : F32) : s.sameRegistersBut (s.setEnv1 (s.env1.next x)) (· = .env1Value) := by
  intro r hr
  cases r with
  | env1Value => exact absurd rfl hr
  | _ => rfl

theorem State.setEnv_registers {u : Nat} (hu : u ≤ 1) (x : F32) :
    s.sameRegistersBut (s.setEnv u ((s.env u).next x))
      (fun r => (u = 0 ∧ r = .env0Value) ∨ (u = 1 ∧ r = .env1Value)) := by
  match u with
  | 0 => exact (s.setEnv0_registers x).mono fun r hr => .inl ⟨rfl, hr⟩
  | 1 => exact (s.setEnv1_registers x).mono fun r hr => .inr ⟨rfl, hr⟩

@[simp] theorem State.setEnv_mem (u : Nat) (x : Env) : (s.setEnv u x).mem = s.mem := by
  unfold State.setEnv
  split <;> rfl

end

/-! ## The detector and the tracker (42_cycle.md R140, R145) -/

/-- The state after the optional filter of the detector (R140). -/
def State.filtered (s : State) (x : F32) : State := if s.ctl.lpfEn = true then s.setLpf (s.lpf.next x) else s

/-- The detector's three writes: the optional filter, both envelopes, and the gates with the counter. -/
theorem State.detect_eq_stages (s : State) (x : F32) : ∃ v c, (s.detect x).1
    = (((s.filtered x).setEnv0 ((s.filtered x).env0.next v)).setEnv1 ((s.filtered x).env1.next v)).setCd c := by
  have henv : (s.filtered x).env0 = s.env0 ∧ (s.filtered x).env1 = s.env1 := by
    unfold State.filtered
    split <;> exact ⟨rfl, rfl⟩
  obtain ⟨henv0, henv1⟩ := henv
  rw [henv0, henv1]
  exact ⟨_, _, rfl⟩

/-- The registers the detector writes: those of the filter only when it is switched on. -/
def Reg.writtenByDetector (lpfEn : Bool) (r : Reg) : Prop :=
  r ∈ [.env0Value, .env1Value, .cdGates, .cdCount, .cdLength] ∨ (lpfEn = true ∧ r ∈ [.lpfValue, .lpfPrev])

theorem State.filtered_registers (s : State) (x : F32) :
    s.sameRegistersBut (s.filtered x) (fun r => s.ctl.lpfEn = true ∧ r ∈ [.lpfValue, .lpfPrev]) := by
  unfold State.filtered
  split
  case isTrue hen => exact (s.setLpf_registers x).mono fun r hr => ⟨hen, hr⟩
  case isFalse => exact fun _ _ => rfl

theorem State.detect_registers (s : State) (x : F32) :
    s.sameRegistersBut (s.detect x).1 (Reg.writtenByDetector s.ctl.lpfEn) := by
  obtain ⟨v, c, hstages⟩ := s.detect_eq_stages x
  rw [hstages]
  refine State.sameRegistersBut.andThen (.andThen (.andThen ?_ (State.setEnv0_registers _ v) fun r hr => .inl ?_)
    (State.setEnv1_registers _ v) fun r hr => .inl ?_) (State.setCd_registers _ c) fun r hr => .inl ?_
  · exact (s.filtered_registers x).mono fun r hr => .inr hr
  · simp [hr]
  · simp [hr]
  · exact List.subset_append_right [Reg.env0Value, .env1Value] _ hr

/-- The tracker stores the sample and notes a crossing, runs the detector, and assigns a cycle (R145). -/
theorem State.track_eq_stages (s : State) (x : F32) : ∃ c c', (s.track x).1
    = (((((s.poke .ring s.ct.wr.toNat x).setCt c).setZdPrev x).detect x).1.setCt c') := ⟨_, _, rfl⟩

/-- The registers the tracker writes: its own, the zero detector's and the cycle detector's. -/
def Reg.writtenByTracker (lpfEn : Bool) (r : Reg) : Prop :=
  r ∈ [.env0Value, .env1Value, .cdGates, .cdCount, .cdLength, .zdPrev,
      .ctWr, .ctLastZc, .ctCycStart, .ctCycEnd, .ctCycLen]
    ∨ (lpfEn = true ∧ r ∈ [.lpfValue, .lpfPrev])

theorem State.track_registers (s : State) (x : F32) :
    s.sameRegistersBut (s.track x).1 (Reg.writtenByTracker s.ctl.lpfEn) := by
  obtain ⟨c, c', hstages⟩ := s.track_eq_stages x
  rw [hstages]
  have hct : ∀ r ∈ [Reg.ctWr, .ctLastZc, .ctCycStart, .ctCycEnd, .ctCycLen],
      r ∈ [Reg.env0Value, .env1Value, .cdGates, .cdCount, .cdLength, .zdPrev,
        .ctWr, .ctLastZc, .ctCycStart, .ctCycEnd, .ctCycLen] := by decide
  refine State.sameRegistersBut.andThen (.andThen (.andThen (.andThen ?_ (State.setCt_registers _ c) fun r hr => ?_)
    (State.setZdPrev_registers _ x) fun r hr => .inl ?_) (State.detect_registers _ x) fun r hr => ?_)
    (State.setCt_registers _ c') fun r hr => ?_
  · exact fun r _ => s.regWord_setMem _ r
  · exact .inl (hct r hr)
  · simp [hr]
  · exact hr.imp_left fun hr => List.mem_append_left _ hr
  · exact .inl (hct r hr)

theorem State.track_cells (s : State) (x : F32) :
    s.sameMemoryBut (s.track x).1 (fun sp i => sp = .ring ∧ i = s.ct.wr.toNat) := by
  intro sp i hne
  rw [State.sameMemoryBut_of_mem (fun _ _ => False) (s.track_mem x) sp i id]
  exact s.peek_poke_ne x (not_and_or.1 hne)

/-- With no cell for the sample the tracker stops before it has done anything (log 9). -/
theorem ctProcess_of_noCell {x : F32} {s : State} (h : s.spaceSize .ring ≤ s.ct.wr.toNat) :
    ctProcess x s = .error (.fault (.noCell .ring s.ct.wr.toNat)) s := by
  unfold ctProcess
  rw [M.bind_of_ok (M.get_apply s)]
  exact M.bind_of_error (if_neg (Nat.not_lt.2 h))

/-! ## The unit commands -/

section
variable {s t : State}

theorem exec_envProc_within {inst : Nat} {x : F32} (h : exec (.envProc inst x) s = .next t) :
    s.Within t (fun _ _ => False) (fun r => (inst = 0 ∧ r = .env0Value) ∨ (inst = 1 ∧ r = .env1Value)) :=
  workCommand_within h fun _ => .require (.refl s _ _) fun hinst => .bind_ok (envProcess_apply inst x s)
    (.pure ⟨State.sameMemoryBut_of_mem _ (s.setEnv_mem _ _), s.setEnv_registers (of_decide_eq_true hinst) x⟩)

theorem exec_lpfProc_within {x : F32} (h : exec (.lpfProc x) s = .next t) :
    s.Within t (fun _ _ => False) (fun r => r = .lpfValue ∨ r = .lpfPrev) :=
  workCommand_within h fun _ => .bind_ok (lpfProcess_apply x s)
    (.pure ⟨State.sameMemoryBut_of_mem _ rfl, (s.setLpf_registers x).mono fun r hr => by simpa using hr⟩)

theorem exec_zdProc_within {x : F32} (h : exec (.zdProc x) s = .next t) :
    s.Within t (fun _ _ => False) (· = .zdPrev) :=
  workCommand_within h fun _ => .bind_ok (zdProcess_apply x s)
    (.pure ⟨State.sameMemoryBut_of_mem _ rfl, s.setZdPrev_registers x⟩)

theorem exec_cdProc_within {x : F32} (h : exec (.cdProc x) s = .next t) :
    s.Within t (fun _ _ => False) (Reg.writtenByDetector s.ctl.lpfEn) :=
  workCommand_within h fun _ => .bind_ok (cdProcess_apply x s)
    (.pure ⟨State.sameMemoryBut_of_mem _ (s.detect_mem x), s.detect_registers x⟩)

/-- The command writes a cell of the ring, or stops because there is none. -/
theorem exec_ctProc_within {x : F32} (h : exec (.ctProc x) s = .next t) :
    s.Within t (fun sp i => sp = .ring ∧ i = s.ct.wr.toNat) (Reg.writtenByTracker s.ctl.lpfEn) := by
  refine workCommand_within h fun hr => ?_
  by_cases hcell : s.ct.wr.toNat < s.spaceSize .ring
  · have hring : s.ct.wr.toNat < s.cfg.ring.toNat := by rwa [spaceSize_of_running hr] at hcell
    exact .bind_ok (ctProcess_apply hr hring) (.pure ⟨s.track_cells x, s.track_registers x⟩)
  · exact .of_error (M.bind_of_error (ctProcess_of_noCell (Nat.not_lt.1 hcell))) (.refl s _ _)

end

end Sys2Proof.Machine

open Sys2Proof Sys2Proof.Machine

/-- Settles O30: each command stays within its frame. -/
theorem unitCommandsFrame : Obligations.UnitCommandsFrame := by
  intro s t inst x
  refine ⟨fun h => ?_, fun h => ?_, fun h => ?_, fun h => ?_, fun h => ?_⟩
  · have hw := exec_envProc_within h
    exact ⟨hw.sameMemory, hw.registers⟩
  · have hw := exec_lpfProc_within h
    exact ⟨hw.sameMemory, hw.registers⟩
  · have hw := exec_zdProc_within h
    exact ⟨hw.sameMemory, hw.registers⟩
  · have hw := exec_cdProc_within h
    exact ⟨hw.sameMemory, hw.registers⟩
  · have hw := exec_ctProc_within h
    exact ⟨hw.cells, hw.registers⟩
end

section
/-! SUPPORT. CT.PROC in a ready block, the gates row by row, and the distance on the ring (spec/42_cycle.md R141 to R147,
00_scope.md R6). -/

namespace Sys2Proof.Machine

/-! ## CT.PROC (R146) -/

theorem exec_ctProc_of_ready {s : State} (hs : s.ready) (hw : s.ct.wr.toNat < s.cfg.ring.toNat) (x : F32) :
    exec (.ctProc x) s
      = .next ((s.track x).1.respond .ok
          [(s.track x).2.start, (s.track x).2.stop, (s.track x).2.length, boolWord (s.track x).2.fresh]) := by
  have hexec : exec (.ctProc x) s = execCtProc x s := rfl
  rw [hexec, execCtProc, workCommand_of_ready hs, outcomeOf_map_of_ok (ctProcess_apply hs.1 hw)]

/-! ## The gates (R141) -/

/-- Equal numbers, and operands of which one is none, are in no strict order (00_scope.md R9). -/
theorem strictOrder_false {a b : F32} (h : feq a b = true ∨ isNaN a = true ∨ isNaN b = true) :
    fgt a b = false ∧ flt a b = false := by
  unfold fgt flt
  rcases h with heq | hnan
  · have hunits : fUnits a = fUnits b := of_decide_eq_true (Bool.and_eq_true_iff.1 heq).2
    simp [hunits]
  · have hordered : ordered a b = false := by
      rcases hnan with h | h <;> simp [ordered, h]
    simp [hordered]

theorem highNext_of_level {v he : F32} (h : feq v he = true ∨ isNaN v = true ∨ isNaN he = true) (g : Gate) :
    highNext g v he = g := by
  obtain ⟨hgt, hlt⟩ := strictOrder_false h
  cases g <;> simp [highNext, hgt, hlt]

theorem lowNext_of_level {v le : F32} (h : feq v le = true ∨ isNaN v = true ∨ isNaN le = true) (g : Gate) :
    lowNext g v le = g := by
  obtain ⟨hgt, hlt⟩ := strictOrder_false h
  cases g <;> simp [lowNext, hgt, hlt]

@[simp] theorem gateRose_off (g : Gate) : gateRose .off g = g.isOn := by cases g <;> rfl
@[simp] theorem gateRose_on (g : Gate) : gateRose .on g = false := rfl

section
variable (c : Cd) (v he le : F32)

@[simp] theorem gateStep_high : (gateStep c v he le).1.high = highNext c.high v he := rfl
@[simp] theorem gateStep_low : (gateStep c v he le).1.low = lowNext c.low v le := rfl
@[simp] theorem gateStep_highRise : (gateStep c v he le).2.1 = gateRose c.high (highNext c.high v he) := rfl
@[simp] theorem gateStep_lowRise : (gateStep c v he le).2.2 = gateRose c.low (lowNext c.low v le) := rfl

end

/-! ## The counter (R143) -/

theorem satInc_eq_min (a : Word) : satInc a = u32 (min (a.toNat + 1) (2 ^ 32 - 1)) := by
  have ha := a.isLt
  apply BitVec.eq_of_toNat_eq
  rw [u32, BitVec.toNat_ofNat, Nat.mod_eq_of_lt (by omega)]
  unfold satInc
  split
  next hmax => rw [hmax]; rfl
  next hlow =>
    have hne : a.toNat ≠ 2 ^ 32 - 1 := fun h => hlow (BitVec.eq_of_toNat_eq h)
    rw [BitVec.toNat_add, show (1 : Word).toNat = 1 from rfl]
    omega

/-! ## The distance on the ring (R147) -/

/-- The distance from `s` up to `e`, or past the end of the ring and on to `e`. -/
theorem subMod_toNat {e s m : Word} (he : e.toNat < m.toNat) (hs : s.toNat < m.toNat) :
    (subMod e s m).toNat = if s.toNat ≤ e.toNat then e.toNat - s.toNat else e.toNat + m.toNat - s.toNat := by
  have hm := m.isLt
  unfold subMod
  split
  · rw [BitVec.toNat_sub]; omega
  · rw [BitVec.toNat_add, BitVec.toNat_sub]; omega

theorem add_subMod_mod {e s m : Word} (he : e.toNat < m.toNat) (hs : s.toNat < m.toNat) :
    (s.toNat + (subMod e s m).toNat) % m.toNat = e.toNat := by
  rw [subMod_toNat he hs]
  split
  next hup => rw [Nat.add_sub_cancel' hup, Nat.mod_eq_of_lt he]
  next hwrap =>
    rw [show s.toNat + (e.toNat + m.toNat - s.toNat) = e.toNat + m.toNat by omega, Nat.add_mod_right,
      Nat.mod_eq_of_lt he]

end Sys2Proof.Machine

open Sys2Proof Sys2Proof.Machine

/-- Settles O28: the pseudocode ends with `State.track`, since the ring has the cell it writes. -/
theorem cycleTracked : Obligations.CycleTracked := by
  intro s x hs hw
  exact exec_ctProc_of_ready hs hw x

/-- Settles O26, by the state each gate is in. -/
theorem gateTransitions : Obligations.GateTransitions := by
  refine ⟨fun c v he le => ?_, fun c high low => ?_⟩
  · refine ⟨?_, ?_, ?_, ?_, ?_, ?_, ?_, ?_, fun h => highNext_of_level h c.high, fun h => lowNext_of_level h c.low,
      rfl, rfl, rfl⟩ <;>
    · intro hgate hcmp
      simp [hgate, highNext, lowNext, hcmp, Gate.isOn]
  · simp only [← satInc_eq_min, cycleStep]
    refine ⟨?_, ?_, ?_, ?_⟩ <;>
    · intro hcycle hrise
      simp [hcycle, hrise]

/-- Settles O27: the pseudocode ends with `State.detect`. -/
theorem cycleDetected : Obligations.CycleDetected := by
  intro s x hs
  exact exec_cdProc_of_ready hs x

/-- Settles O29: the distance is below the capacity and leads to the end. -/
theorem cycleLengthOnRing : Obligations.CycleLengthOnRing := by
  intro e s m he hs
  exact ⟨subMod_lt he hs, add_subMod_mod he hs⟩
end

section
/-! SUPPORT. The refinement: which of its candidates it returns (43_analyzer.md R165). -/

namespace Sys2Proof.Machine

/-- What the refinement has for its previous candidate in round `j`. -/
def prevCandidate (c : Cfg) (dp : F32) : Nat → Option F32
  | 0 => none
  | j + 1 => some (candidate c dp j)

/-- The result of a refinement whose first candidate above the estimate has number `j` (R165 (b), (c)). -/
def nearerCandidate (c : Cfg) (dp fEst : F32) (j : Nat) : F32 :=
  if j = 0 then candidate c dp 0
  else if flt (fabs (fsub (candidate c dp j) fEst)) (fabs (fsub (candidate c dp (j - 1)) fEst)) = true then
    candidate c dp j
  else candidate c dp (j - 1)

section
variable (c : Cfg) (dp fEst : F32)

/-- The loop before round `j`, with `n` rounds left. -/
def refineFrom (n j : Nat) : Option F32 :=
  refineLoop dp (hopTime c) fEst n (unwrapOffset j) (prevCandidate c dp j)

theorem refined_eq_refineFrom (pk : Peak) :
    refined c pk fEst = refineFrom c (fsub pk.curPhase pk.prevPhase) fEst (c.hop.toNat + 8) 0 := rfl

/-- A round whose candidate is above the estimate ends the loop. -/
theorem refineFrom_succ_of_above {n j : Nat} (h : fgt (candidate c dp j) fEst = true) :
    refineFrom c dp fEst (n + 1) j = some (nearerCandidate c dp fEst j) := by
  refine (if_pos h).trans ?_
  cases j with
  | zero =>
    rw [nearerCandidate, if_pos rfl]
    rfl
  | succ j =>
    rw [nearerCandidate, if_neg (Nat.succ_ne_zero j), Nat.add_sub_cancel, apply_ite some]
    rfl

/-- Any other round goes on to the next. -/
theorem refineFrom_succ_of_not {n j : Nat} (h : fgt (candidate c dp j) fEst = false) :
    refineFrom c dp fEst (n + 1) j = refineFrom c dp fEst n (j + 1) :=
  if_neg (Bool.not_eq_true _ ▸ h)

end

section
variable {c : Cfg} {dp fEst : F32}

/-- No candidate above the estimate: the rounds run out. -/
theorem refineFrom_eq_none {n j : Nat} (h : ∀ i, i < j + n → fgt (candidate c dp i) fEst = false) :
    refineFrom c dp fEst n j = none := by
  induction n generalizing j with
  | zero => rfl
  | succ n ih =>
    rw [refineFrom_succ_of_not c dp fEst (h j (by omega))]
    exact ih fun i hi => h i (by omega)

/-- The first candidate above the estimate ends the loop. -/
theorem refineFrom_of_first {n j k : Nat} (hjk : j ≤ k) (hk : k < j + n) (habove : fgt (candidate c dp k) fEst = true)
    (hfirst : ∀ i, i < k → fgt (candidate c dp i) fEst = false) :
    refineFrom c dp fEst n j = some (nearerCandidate c dp fEst k) := by
  induction n generalizing j with
  | zero => omega
  | succ n ih =>
    rcases Nat.eq_or_lt_of_le hjk with rfl | hlt
    · exact refineFrom_succ_of_above c dp fEst habove
    · rw [refineFrom_succ_of_not c dp fEst (hfirst j hlt)]
      exact ih hlt (by omega)

/-- The loop fails exactly when no candidate is above the estimate. -/
theorem refineFrom_eq_none_iff {n : Nat} :
    refineFrom c dp fEst n 0 = none ↔ ∀ j, j < n → fgt (candidate c dp j) fEst = false := by
  refine ⟨fun hnone => ?_, fun h => refineFrom_eq_none fun i hi => h i (by omega)⟩
  by_contra! hsome
  obtain ⟨hk, habove⟩ := Nat.find_spec hsome
  have hfirst : ∀ i, i < Nat.find hsome → fgt (candidate c dp i) fEst = false := fun i hi =>
    Bool.eq_false_of_not_eq_true fun hi' =>
      Nat.find_min hsome hi ⟨hi.trans hk, ne_false_of_eq_true hi'⟩
  rw [refineFrom_of_first (Nat.zero_le _) (by omega) (Bool.eq_true_of_not_eq_false habove) hfirst] at hnone
  cases hnone

end

end Sys2Proof.Machine

open Sys2Proof Sys2Proof.Machine

/-- Settles O36: the loop ends in the round of the first candidate above the estimate, if there is one. -/
theorem refinementPicksNearer : Obligations.RefinementPicksNearer := by
  intro c pk fEst
  rw [refined_eq_refineFrom]
  exact ⟨refineFrom_eq_none_iff, fun j hj habove hfirst =>
    refineFrom_of_first (Nat.zero_le j) (by omega) habove hfirst⟩
end

section
/-! SUPPORT. What the analyzer leaves in the work buffer: the loaded window, the window applied (43_analyzer.md R160,
R161). -/

namespace Sys2Proof.Machine

/-! ## Only the work buffer changes -/

/-- `t` is `s` but for the work buffer of the analyzer. -/
structure WorkOnly (s t : State) : Prop where
  memOnly : MemOnly s t
  cells : s.sameMemoryBut t (fun sp i => (sp = .anRe ∨ sp = .anIm) ∧ i < s.cfg.win.toNat)

/-- A number into the real and the imaginary cell `k` of the work buffer. -/
def State.putWork (s : State) (k : Nat) (z : F32 × F32) : State := (s.poke .anRe k z.1).poke .anIm k z.2

theorem State.workCell_putWork {s : State} (hwf : s.mem.wf = true) (k j : Nat) (z : F32 × F32) :
    (s.putWork k z).workCell j = if j = k then z else s.workCell j := by
  unfold State.putWork State.workCell
  rw [State.peek_poke_ne _ z.2 (.inl (by decide))]
  split
  next h =>
    subst h
    rw [State.peek_poke_same _ _ _ hwf, State.peek_poke_same _ _ _ (State.poke_wf _ _ _ hwf)]
  next h => rw [State.peek_poke_ne _ _ (.inr h), State.peek_poke_ne _ _ (.inr h), State.peek_poke_ne _ _ (.inr h)]

namespace WorkOnly
variable {s t u : State}

theorem refl (hwf : s.mem.wf = true) : WorkOnly s s := ⟨.refl hwf, fun _ _ _ => rfl⟩

theorem trans (h : WorkOnly s t) (h' : WorkOnly t u) : WorkOnly s u :=
  ⟨h.memOnly.trans h'.memOnly, fun sp i hi => (h'.cells sp i (by rwa [h.memOnly.cfg])).trans (h.cells sp i hi)⟩

theorem poke (h : WorkOnly s t) {sp : Space} (hsp : sp = .anRe ∨ sp = .anIm) {i : Nat} (hi : i < s.cfg.win.toNat)
    (w : Word) : WorkOnly s (t.poke sp i w) := by
  refine ⟨h.memOnly.poke sp i w, fun sp' j hj => ?_⟩
  have hne : sp' ≠ sp ∨ j ≠ i := by
    by_contra! heq
    obtain ⟨rfl, rfl⟩ := heq
    exact hj ⟨hsp, hi⟩
  rw [State.peek_poke_ne _ _ hne]
  exact h.cells sp' j hj

theorem putWork (h : WorkOnly s t) {k : Nat} (hk : k < s.cfg.win.toNat) (z : F32 × F32) : WorkOnly s (t.putWork k z) :=
  (h.poke (.inl rfl) hk z.1).poke (.inr rfl) hk z.2

/-- Every other space is as it was. -/
theorem peek (h : WorkOnly s t) {sp : Space} (hre : sp ≠ .anRe) (him : sp ≠ .anIm) (i : Nat) :
    t.peek sp i = s.peek sp i :=
  h.cells sp i fun hi => hi.1.elim hre him

theorem twiddle (h : WorkOnly s t) : t.twiddle = s.twiddle := by
  funext k
  unfold State.twiddle
  rw [h.peek (by decide) (by decide), h.peek (by decide) (by decide)]

theorem running (h : WorkOnly s t) (hr : s.running = true) : t.running = true := by rw [h.memOnly.running, hr]

theorem wf (h : WorkOnly s t) : t.mem.wf = true := h.memOnly.2

theorem win (h : WorkOnly s t) : t.cfg.win = s.cfg.win := by rw [h.memOnly.cfg]

end WorkOnly

/-! ## Loading and windowing -/

/-- One round of `AnWindow` (R161). -/
def windowRound (i : Nat) : M Unit := do
  let x ← loadCell .anRe i
  let w ← loadCell .anWin i
  storeCell .anRe i (fmul x w)
  storeCell .anIm i pzero

theorem anWindow_eq_rounds (s : State) : anWindow s = forFrom s.cfg.win.toNat 0 windowRound s := rfl

/-- A number of the window times its coefficient (R161). -/
def State.windowed (s : State) (i : Nat) : F32 × F32 := (fmul (s.peek .anRe i) (s.peek .anWin i), pzero)

/-- `t` is `s` after the first `i` rounds of `AnWindow`. -/
structure WindowedBelow (s : State) (i : Nat) (t : State) : Prop where
  work : WorkOnly s t
  done : ∀ j, j < i → t.workCell j = s.windowed j
  rest : ∀ j, i ≤ j → t.workCell j = s.workCell j

section
variable {s : State} (hr : s.running = true)
include hr

theorem anLoad_workOnly (hwf : s.mem.wf = true) : ∃ u, anLoad s = .ok () u ∧ WorkOnly s u := by
  obtain ⟨u, hu, hmem, -, hrest⟩ := anLoad_apply hr hwf
  refine ⟨u, hu, hmem, fun sp i hi => hrest sp i ?_⟩
  by_contra! hin
  exact hi ⟨.inl hin.1, hin.2⟩

theorem windowRound_apply {i : Nat} (hi : i < s.cfg.win.toNat) :
    windowRound i s = .ok () (s.putWork i (s.windowed i)) := by
  have hcell : ∀ sp, s.cfg.spaceSize sp = s.cfg.win.toNat → i < s.spaceSize sp := fun sp h => by
    rw [spaceSize_of_running hr, h]
    exact hi
  unfold windowRound
  rw [M.bind_of_ok (loadCell_of_lt (hcell .anRe rfl)), M.bind_of_ok (loadCell_of_lt (hcell .anWin rfl)),
    M.bind_of_ok (storeCell_of_lt (hcell .anRe rfl))]
  exact storeCell_of_lt (hcell .anIm rfl)

theorem WindowedBelow.round {t : State} {i : Nat} (h : WindowedBelow s i t) (hi : i < s.cfg.win.toNat) :
    ∃ u, windowRound i t = .ok () u ∧ WindowedBelow s (i + 1) u := by
  have hround := windowRound_apply (h.work.running hr) (i := i) (by rwa [h.work.win])
  have hnumber : t.windowed i = s.windowed i := by
    have hre : t.peek .anRe i = s.peek .anRe i := congrArg Prod.fst (h.rest i le_rfl)
    rw [State.windowed, hre, h.work.peek (by decide) (by decide), State.windowed]
  rw [hnumber] at hround
  refine ⟨_, hround, h.work.putWork hi _, fun j hj => ?_, fun j hj => ?_⟩
  · rw [State.workCell_putWork h.work.wf]
    split
    next heq => rw [heq]
    next hne => exact h.done j (by omega)
  · rw [State.workCell_putWork h.work.wf, if_neg (by omega)]
    exact h.rest j (by omega)

/-- `AnWindow` (R161): every number of the work buffer is its sample times its coefficient. -/
theorem anWindow_apply (hwf : s.mem.wf = true) : ∃ u, anWindow s = .ok () u ∧ WorkOnly s u
    ∧ ∀ i, i < s.cfg.win.toNat → u.workCell i = s.windowed i := by
  obtain ⟨u, hu, hdone⟩ := forFrom_ok (P := WindowedBelow s) (body := windowRound) s.cfg.win.toNat 0
    (fun i t _ hi ht => ht.round hr (by omega))
    ⟨.refl hwf, fun j hj => absurd hj (Nat.not_lt_zero j), fun _ _ => rfl⟩
  exact ⟨u, by rwa [anWindow_eq_rounds], hdone.work, fun i hi => hdone.done i (by omega)⟩

end

/-- The window table as INIT wrote it (R161; 40_system_access.md R104). -/
theorem peek_anWin {s : State} (h : RunningInv s) {i : Nat} (hi : i < s.cfg.win.toNat) :
    s.peek .anWin i = winCoef s.cfg.win.toNat i := by
  unfold State.peek
  rw [show s.mem.cells .anWin = s.mem.anWin from rfl, h.tableWin, cellAt_tableCells, if_pos (by omega)]

end Sys2Proof.Machine

open Sys2Proof Sys2Proof.Machine

/-- Settles O33: the coefficients in the table are those INIT wrote. -/
theorem windowApplied : Obligations.WindowApplied := by
  intro s hinv hr
  obtain ⟨u, hu, hwork, hcells⟩ := anWindow_apply hr hinv.memWf
  refine ⟨u, hu, fun i hi => ?_, fun sp i hsp => hwork.cells sp i fun h => hsp h.1, hwork.memOnly.1⟩
  rw [← peek_anWin (hinv.running hr) hi]
  exact ⟨congrArg Prod.fst (hcells i hi), congrArg Prod.snd (hcells i hi)⟩
end

section
/-! SUPPORT. The bit-reversal permutation of the work buffer (43_analyzer.md R162; 00_scope.md R6). -/

namespace Sys2Proof.Machine

/-! ## Bit reversal -/

theorem bitrev_succ (i b : Nat) : bitrev i (b + 1) = i % 2 * 2 ^ b + bitrev (i / 2) b := rfl

/-- The highest bit of a number becomes the lowest. -/
theorem bitrev_add_two_pow {y b : Nat} (hy : y < 2 ^ b) (x : Nat) :
    bitrev (x * 2 ^ b + y) (b + 1) = 2 * bitrev y b + x % 2 := by
  induction b generalizing y with
  | zero =>
    obtain rfl : y = 0 := by omega
    simp [bitrev]
  | succ b ih =>
    have hsplit : x * 2 ^ (b + 1) + y = 2 * (x * 2 ^ b) + y := by rw [Nat.pow_succ]; ring
    have hlow : (x * 2 ^ (b + 1) + y) % 2 = y % 2 := by omega
    have hhigh : (x * 2 ^ (b + 1) + y) / 2 = x * 2 ^ b + y / 2 := by omega
    have hy' : y / 2 < 2 ^ b := by rw [Nat.pow_succ] at hy; omega
    rw [bitrev_succ, hlow, hhigh, ih hy', bitrev_succ, Nat.pow_succ]
    ring

/-- Bit reversal undoes itself. -/
theorem bitrev_bitrev {i b : Nat} (hi : i < 2 ^ b) : bitrev (bitrev i b) b = i := by
  induction b generalizing i with
  | zero =>
    rw [Nat.pow_zero] at hi
    rw [bitrev]
    omega
  | succ b ih =>
    have hi' : i / 2 < 2 ^ b := by rw [Nat.pow_succ] at hi; omega
    rw [bitrev_succ i, bitrev_add_two_pow (bitrev_lt _ _), ih hi']
    omega

/-! ## The permutation -/

/-- Cells `i` and `j` of a space exchanged. -/
theorem peek_swapped {s : State} (hwf : s.mem.wf = true) (sp : Space) (i j k : Nat) :
    ((s.poke sp i (s.peek sp j)).poke sp j (s.peek sp i)).peek sp k = s.peek sp (Equiv.swap i j k) := by
  by_cases hj : k = j
  · rw [hj, State.peek_poke_same _ _ _ (State.poke_wf _ _ _ hwf), Equiv.swap_apply_right]
  · rw [State.peek_poke_ne _ _ (.inr hj)]
    by_cases hi : k = i
    · rw [hi, State.peek_poke_same _ _ _ hwf, Equiv.swap_apply_left]
    · rw [State.peek_poke_ne _ _ (.inr hi), Equiv.swap_apply_of_ne_of_ne hi hj]

/-- The numbers `i` and `j` of the work buffer exchanged. -/
def State.swapWork (s : State) (i j : Nat) : State :=
  let t := (s.poke .anRe i (s.peek .anRe j)).poke .anRe j (s.peek .anRe i)
  (t.poke .anIm i (t.peek .anIm j)).poke .anIm j (t.peek .anIm i)

theorem State.workCell_swapWork {s : State} (hwf : s.mem.wf = true) (i j k : Nat) :
    (s.swapWork i j).workCell k = s.workCell (Equiv.swap i j k) := by
  have hre := State.poke_wf .anRe j (s.peek .anRe i) (State.poke_wf .anRe i (s.peek .anRe j) hwf)
  unfold State.swapWork State.workCell
  rw [State.peek_poke_ne _ _ (.inl (by decide)), State.peek_poke_ne _ _ (.inl (by decide)), peek_swapped hwf,
    peek_swapped hre, State.peek_poke_ne _ _ (.inl (by decide)), State.peek_poke_ne _ _ (.inl (by decide))]

theorem WorkOnly.swapWork {s t : State} (h : WorkOnly s t) {i j : Nat} (hi : i < s.cfg.win.toNat)
    (hj : j < s.cfg.win.toNat) : WorkOnly s (t.swapWork i j) :=
  (((h.poke (.inl rfl) hi _).poke (.inl rfl) hj _).poke (.inr rfl) hi _).poke (.inr rfl) hj _

/-- One round of the permutation (R162). -/
def permuteRound (bits i : Nat) : M Unit := do
  let j := bitrev i bits
  if i < j then
    swapCells .anRe i j
    swapCells .anIm i j

theorem anPermute_eq_rounds (n bits : Nat) : anPermute n bits = forFrom n 0 (permuteRound bits) := rfl

theorem permuteRound_apply {s : State} (hr : s.running = true) {bits i : Nat} (hi : i < s.cfg.win.toNat)
    (hj : bitrev i bits < s.cfg.win.toNat) :
    permuteRound bits i s = .ok () (if i < bitrev i bits then s.swapWork i (bitrev i bits) else s) := by
  have hcell : ∀ t : State, t.spaceSize = s.spaceSize → ∀ sp, s.cfg.spaceSize sp = s.cfg.win.toNat →
      ∀ k, k < s.cfg.win.toNat → k < t.spaceSize sp := fun t ht sp h k hk => by
    rw [ht, spaceSize_of_running hr, h]
    exact hk
  unfold permuteRound
  rw [M.ite_apply]
  split
  · rw [M.bind_of_ok (swapCells_apply (hcell s rfl _ rfl _ hi) (hcell s rfl _ rfl _ hj))]
    exact swapCells_apply (hcell _ rfl _ rfl _ hi) (hcell _ rfl _ rfl _ hj)
  · rfl

/-- `t` is `s` after the first `i` rounds of the permutation of `2 ^ b` numbers: a pair is exchanged in the round of its
lower number. -/
structure PermutedBelow (b : Nat) (s : State) (i : Nat) (t : State) : Prop where
  work : WorkOnly s t
  done : ∀ k, k < 2 ^ b → k < i ∨ bitrev k b < i → t.workCell k = s.workCell (bitrev k b)
  rest : ∀ k, k < 2 ^ b → i ≤ k → i ≤ bitrev k b → t.workCell k = s.workCell k

theorem PermutedBelow.round {s t : State} {b i : Nat} (hr : s.running = true) (hb : s.cfg.win.toNat = 2 ^ b)
    (h : PermutedBelow b s i t) (hi : i < 2 ^ b) :
    ∃ u, permuteRound b i t = .ok () u ∧ PermutedBelow b s (i + 1) u := by
  have hj := bitrev_lt i b
  have hround := permuteRound_apply (h.work.running hr) (bits := b) (i := i) (by rwa [h.work.win, hb])
    (by rwa [h.work.win, hb])
  have hinv : ∀ {k}, k < 2 ^ b → bitrev k b = i → k = bitrev i b := fun hk hki => by rw [← hki, bitrev_bitrev hk]
  refine ⟨_, hround, ?_⟩
  split
  case isTrue hlt =>
    have hwork := State.workCell_swapWork h.work.wf i (bitrev i b)
    refine ⟨h.work.swapWork (by rwa [hb]) (by rwa [hb]), fun k hk hki => ?_, fun k hk hik hikr => ?_⟩
    · rw [hwork]
      by_cases hkeq : k = i
      · rw [hkeq, Equiv.swap_apply_left]
        exact h.rest _ hj hlt.le (by rw [bitrev_bitrev hi])
      · by_cases hkj : k = bitrev i b
        · rw [hkj, Equiv.swap_apply_right, bitrev_bitrev hi]
          exact h.rest _ hi le_rfl hlt.le
        · have hne : bitrev k b ≠ i := fun h' => hkj (hinv hk h')
          rw [Equiv.swap_apply_of_ne_of_ne hkeq hkj]
          exact h.done k hk (by omega)
    · have hne : k ≠ bitrev i b := by
        rintro rfl
        rw [bitrev_bitrev hi] at hikr
        omega
      rw [hwork, Equiv.swap_apply_of_ne_of_ne (by omega) hne]
      exact h.rest k hk (by omega) (by omega)
  case isFalse hle =>
    refine ⟨h.work, fun k hk hki => ?_, fun k hk hik hikr => h.rest k hk (by omega) (by omega)⟩
    by_cases hkdone : k < i ∨ bitrev k b < i
    · exact h.done k hk hkdone
    · have hfix : bitrev k b = k := by
        rcases hki with hki | hki
        · obtain rfl : k = i := by omega
          omega
        · have hki : bitrev k b = i := by omega
          have hkj := hinv hk hki
          omega
      rw [hfix]
      exact h.rest k hk (by omega) (by omega)

/-- The permutation puts every number where the reversal of its bits says (R162). -/
theorem anPermute_apply {s : State} {b : Nat} (hr : s.running = true) (hwf : s.mem.wf = true)
    (hb : s.cfg.win.toNat = 2 ^ b) :
    ∃ u, anPermute (2 ^ b) b s = .ok () u ∧ WorkOnly s u
      ∧ ∀ k, k < 2 ^ b → u.workCell k = s.workCell (bitrev k b) := by
  obtain ⟨u, hu, hdone⟩ := forFrom_ok (P := PermutedBelow b s) (body := permuteRound b) (2 ^ b) 0
    (fun i t _ hi ht => ht.round hr hb (by omega))
    ⟨.refl hwf, fun k _ hk => by omega, fun _ _ _ _ => rfl⟩
  exact ⟨u, by rwa [anPermute_eq_rounds], hdone.work, fun k hk => hdone.done k hk (.inl (by omega))⟩

end Sys2Proof.Machine
end

section
/-! SUPPORT. The stages of the transform: each joins the transforms of half the length by its butterflies (43_analyzer.md
R162). -/

namespace Sys2Proof.Machine

/-! ## Numbers of the work buffer -/

/-- The number `o` turned by the twiddle `w`, each operation rounded by itself (R162). -/
def turned (w o : F32 × F32) : F32 × F32 :=
  (fsub (fmul o.1 w.1) (fmul o.2 w.2), fadd (fmul o.1 w.2) (fmul o.2 w.1))

def cadd (x y : F32 × F32) : F32 × F32 := (fadd x.1 y.1, fadd x.2 y.2)

def csub (x y : F32 × F32) : F32 × F32 := (fsub x.1 y.1, fsub x.2 y.2)

section
variable (tw : Nat → F32 × F32) {b : Nat} (step : Nat) (x : Nat → F32 × F32)

theorem radix2_zero (k : Nat) : radix2 tw 0 step x k = x 0 := rfl

/-- The lower half of a transform: the sums. -/
theorem radix2_low {j : Nat} (hj : j < 2 ^ b) : radix2 tw (b + 1) step x j =
    cadd (radix2 tw b (2 * step) (fun n => x (2 * n)) j)
      (turned (tw (j * step)) (radix2 tw b (2 * step) (fun n => x (2 * n + 1)) j)) := by
  rw [radix2, Nat.mod_eq_of_lt hj]
  exact if_pos hj

/-- The upper half: the differences. -/
theorem radix2_high {j : Nat} (hj : j < 2 ^ b) : radix2 tw (b + 1) step x (j + 2 ^ b) =
    csub (radix2 tw b (2 * step) (fun n => x (2 * n)) j)
      (turned (tw (j * step)) (radix2 tw b (2 * step) (fun n => x (2 * n + 1)) j)) := by
  rw [radix2, Nat.add_mod_right, Nat.mod_eq_of_lt hj]
  exact if_neg (by omega)

end

/-- A butterfly as two writes (R162). -/
theorem butterfly_putWork {s : State} {a b t : Nat} (hr : s.running = true) (ha : a < s.cfg.win.toNat)
    (hb : b < s.cfg.win.toNat) (ht : t < s.cfg.win.toNat / 2) :
    butterfly a b t s = .ok ()
      ((s.putWork a (cadd (s.workCell a) (turned (s.twiddle t) (s.workCell b)))).putWork b
        (csub (s.workCell a) (turned (s.twiddle t) (s.workCell b)))) :=
  butterfly_apply hr ha hb ht

/-- A butterfly: the sum of the first number and the second, turned, and their difference; no other number changes. -/
theorem butterfly_workOnly {s : State} {a b t : Nat} (hr : s.running = true) (hwf : s.mem.wf = true)
    (ha : a < s.cfg.win.toNat) (hb : b < s.cfg.win.toNat) (ht : t < s.cfg.win.toNat / 2) (hab : a ≠ b) :
    ∃ u, butterfly a b t s = .ok () u ∧ WorkOnly s u
      ∧ u.workCell a = cadd (s.workCell a) (turned (s.twiddle t) (s.workCell b))
      ∧ u.workCell b = csub (s.workCell a) (turned (s.twiddle t) (s.workCell b))
      ∧ ∀ k, k ≠ a → k ≠ b → u.workCell k = s.workCell k := by
  have hrun := butterfly_putWork hr ha hb ht
  generalize cadd (s.workCell a) (turned (s.twiddle t) (s.workCell b)) = sum at hrun ⊢
  generalize csub (s.workCell a) (turned (s.twiddle t) (s.workCell b)) = difference at hrun ⊢
  have hfirst := (WorkOnly.refl hwf).putWork ha sum
  refine ⟨_, hrun, hfirst.putWork hb difference, ?_, ?_, fun k hka hkb => ?_⟩ <;>
    rw [State.workCell_putWork hfirst.wf]
  · rw [if_neg hab, State.workCell_putWork hwf, if_pos rfl]
  · rw [if_pos rfl]
  · rw [if_neg hkb, State.workCell_putWork hwf, if_neg hka]

/-! ## One stage -/

/-- The lower cell of butterfly `j` in block `q`, the blocks of a stage being of `2 * half` cells (R162). -/
def lowCell (half q j : Nat) : Nat := q * (2 * half) + j

/-- Butterflies with another number touch other cells (R162). -/
theorem lowCell_ne {half q j q' j' : Nat} (hj : j < half) (hj' : j' < half) (h : ¬ (q' = q ∧ j' = j)) :
    lowCell half q' j' ≠ lowCell half q j ∧ lowCell half q' j' ≠ lowCell half q j + half
      ∧ lowCell half q' j' + half ≠ lowCell half q j := by
  unfold lowCell
  rcases Nat.lt_trichotomy q' q with hlt | rfl | hlt
  · have := Nat.mul_le_mul_right (2 * half) hlt
    rw [Nat.succ_mul] at this
    omega
  · omega
  · have := Nat.mul_le_mul_right (2 * half) hlt
    rw [Nat.succ_mul] at this
    omega

/-- What butterfly `j` of block `q` adds to its first number and takes from it. -/
def State.turnedCell (s : State) (half step q j : Nat) : F32 × F32 :=
  turned (s.twiddle (j * step)) (s.workCell (lowCell half q j + half))

/-- `t` is `s` after the butterflies `j` of the blocks `q` of a stage with `done q j`. -/
structure StageDone (s : State) (half step : Nat) (done : Nat → Nat → Prop) (t : State) : Prop where
  work : WorkOnly s t
  low : ∀ q j, j < half → done q j →
    t.workCell (lowCell half q j) = cadd (s.workCell (lowCell half q j)) (s.turnedCell half step q j)
  high : ∀ q j, j < half → done q j →
    t.workCell (lowCell half q j + half) = csub (s.workCell (lowCell half q j)) (s.turnedCell half step q j)
  rest : ∀ q j, j < half → ¬ done q j → t.workCell (lowCell half q j) = s.workCell (lowCell half q j)
    ∧ t.workCell (lowCell half q j + half) = s.workCell (lowCell half q j + half)

namespace StageDone
variable {s t : State} {half step : Nat} {done done' : Nat → Nat → Prop}

theorem refl (hwf : s.mem.wf = true) (hnone : ∀ q j, ¬ done q j) : StageDone s half step done s :=
  ⟨.refl hwf, fun q j _ h => absurd h (hnone q j), fun q j _ h => absurd h (hnone q j), fun _ _ _ _ => ⟨rfl, rfl⟩⟩

/-- Only which of the stage's butterflies are done matters. -/
theorem congr (h : StageDone s half step done t) (hiff : ∀ q j, j < half → (done q j ↔ done' q j)) :
    StageDone s half step done' t where
  work := h.work
  low q j hj hd := h.low q j hj ((hiff q j hj).2 hd)
  high q j hj hd := h.high q j hj ((hiff q j hj).2 hd)
  rest q j hj hd := h.rest q j hj (mt (hiff q j hj).1 hd)

/-- One butterfly more. -/
theorem addButterfly (h : StageDone s half step done t) (hr : s.running = true) {q j : Nat} (hj : j < half)
    (hcell : lowCell half q j + half < s.cfg.win.toNat) (htwiddle : j * step < s.cfg.win.toNat / 2)
    (hnew : ¬ done q j) :
    ∃ u, butterfly (lowCell half q j) (lowCell half q j + half) (j * step) t = .ok () u
      ∧ StageDone s half step (fun q' j' => done q' j' ∨ q' = q ∧ j' = j) u := by
  rw [← h.work.win] at hcell htwiddle
  obtain ⟨u, hu, hwork, hlow, hhigh, hrest⟩ := butterfly_workOnly (h.work.running hr) h.work.wf
    (show lowCell half q j < _ by omega) hcell htwiddle (by omega)
  obtain ⟨hfirst, hsecond⟩ := h.rest q j hj hnew
  rw [hfirst, hsecond, h.work.twiddle] at hlow hhigh
  have hother : ∀ q' j', j' < half → ¬ (q' = q ∧ j' = j) →
      u.workCell (lowCell half q' j') = t.workCell (lowCell half q' j')
        ∧ u.workCell (lowCell half q' j' + half) = t.workCell (lowCell half q' j' + half) := by
    intro q' j' hj' hne
    obtain ⟨hll, hlh, hhl⟩ := lowCell_ne hj hj' hne
    exact ⟨hrest _ hll hlh, hrest _ hhl (by omega)⟩
  refine ⟨u, hu, h.work.trans hwork, fun q' j' hj' hd => ?_, fun q' j' hj' hd => ?_, fun q' j' hj' hd => ?_⟩
  · by_cases heq : q' = q ∧ j' = j
    · obtain ⟨rfl, rfl⟩ := heq
      exact hlow
    · exact (hother q' j' hj' heq).1.trans (h.low q' j' hj' (hd.resolve_right heq))
  · by_cases heq : q' = q ∧ j' = j
    · obtain ⟨rfl, rfl⟩ := heq
      exact hhigh
    · exact (hother q' j' hj' heq).2.trans (h.high q' j' hj' (hd.resolve_right heq))
  · obtain ⟨hnd, hne⟩ := not_or.1 hd
    exact (hother q' j' hj' hne).imp (fun hk => hk.trans (h.rest q' j' hj' hnd).1)
      fun hk => hk.trans (h.rest q' j' hj' hnd).2

end StageDone

/-- The butterflies of block `q` of a stage (R162). -/
def stageBlock (half step q : Nat) : M Unit :=
  forFrom half 0 (fun j => butterfly (lowCell half q j) (lowCell half q j + half) (j * step))

/-- Stage `c + 1` of `2 ^ (c + 1 + d)` numbers: `2 ^ d` blocks of `2 ^ c` butterflies. -/
theorem fftStage_eq_blocks (c d : Nat) :
    fftStage (2 ^ (c + 1 + d)) (c + 1) = forFrom (2 ^ d) 0 (stageBlock (2 ^ c) (2 ^ d)) := by
  have hhalf : 2 ^ (c + 1) / 2 = 2 ^ c := by rw [Nat.pow_succ, Nat.mul_div_cancel _ Nat.two_pos]
  have hblocks : 2 ^ (c + 1 + d) / 2 ^ (c + 1) = 2 ^ d := by
    rw [Nat.pow_add, Nat.mul_div_cancel_left _ (Nat.two_pow_pos _)]
  unfold fftStage stageBlock lowCell
  dsimp only
  rw [hhalf, hblocks, Nat.pow_succ']

section
variable {s t : State} {c d : Nat} (hr : s.running = true) (hb : s.cfg.win.toNat = 2 ^ (c + 1 + d))
include hr hb

/-- One block more. -/
theorem StageDone.block {q : Nat} (h : StageDone s (2 ^ c) (2 ^ d) (fun q' _ => q' < q) t) (hq : q < 2 ^ d) :
    ∃ u, stageBlock (2 ^ c) (2 ^ d) q t = .ok () u ∧ StageDone s (2 ^ c) (2 ^ d) (fun q' _ => q' < q + 1) u := by
  have hend : q * (2 * 2 ^ c) + 2 * 2 ^ c ≤ s.cfg.win.toNat := by
    rw [hb, show 2 ^ (c + 1 + d) = 2 ^ d * (2 * 2 ^ c) by ring, ← Nat.succ_mul]
    exact Nat.mul_le_mul_right _ hq
  have htable : s.cfg.win.toNat / 2 = 2 ^ (c + d) := by
    rw [hb, show c + 1 + d = c + d + 1 by omega, Nat.pow_succ, Nat.mul_div_cancel _ Nat.two_pos]
  refine (forFrom_ok
    (P := fun j t => StageDone s (2 ^ c) (2 ^ d) (fun q' j' => q' < q ∨ q' = q ∧ j' < j) t) (2 ^ c) 0
    (fun j v _ hj hv => ?_) (h.congr fun q' j' _ => by omega)).imp fun u hu =>
      hu.imp_right fun hdone => hdone.congr fun q' j' hj' => by omega
  obtain ⟨w, hw, hnext⟩ := hv.addButterfly hr (q := q) (j := j) (by omega) (by unfold lowCell; omega)
    (by rw [htable]; exact twiddle_lt (by omega)) (by omega)
  exact ⟨w, hw, hnext.congr fun q' j' _ => by omega⟩

/-- All of one stage. -/
theorem fftStage_apply (hwf : s.mem.wf = true) :
    ∃ u, fftStage (2 ^ (c + 1 + d)) (c + 1) s = .ok () u ∧ StageDone s (2 ^ c) (2 ^ d) (fun q _ => q < 2 ^ d) u := by
  obtain ⟨u, hu, hdone⟩ := forFrom_ok (P := fun q t => StageDone s (2 ^ c) (2 ^ d) (fun q' _ => q' < q) t)
    (body := stageBlock (2 ^ c) (2 ^ d)) (2 ^ d) 0 (fun q t _ hq ht => ht.block hr hb (by omega))
    (.refl hwf fun q _ => Nat.not_lt_zero q)
  exact ⟨u, by rwa [fftStage_eq_blocks], hdone.congr fun q j _ => by omega⟩

end

/-! ## All stages -/

/-- The work buffer of `t` in blocks of `2 ^ c` numbers, each the transform of every `2 ^ d`-th of the numbers `x`. -/
def State.blocksTransformed (t : State) (tw x : Nat → F32 × F32) (c d : Nat) : Prop :=
  ∀ q r, q < 2 ^ d → r < 2 ^ c →
    t.workCell (q * 2 ^ c + r) = radix2 tw c (2 ^ d) (fun n => x (bitrev q d + n * 2 ^ d)) r

/-- A stage joins the blocks two by two (R162). -/
theorem StageDone.blocksTransformed {s t : State} {x : Nat → F32 × F32} {c d : Nat}
    (h : StageDone s (2 ^ c) (2 ^ d) (fun q _ => q < 2 ^ d) t) (hs : s.blocksTransformed s.twiddle x c (d + 1)) :
    t.blocksTransformed s.twiddle x (c + 1) d := by
  intro q r hq hr
  have hpow : 2 ^ (c + 1) = 2 * 2 ^ c := Nat.pow_succ'
  have hstep : 2 ^ (d + 1) = 2 * 2 ^ d := Nat.pow_succ'
  have hblock : ∀ p < 2, ∀ j < 2 ^ c, s.workCell ((2 * q + p) * 2 ^ c + j)
      = radix2 s.twiddle c (2 * 2 ^ d) (fun n => x (bitrev q d + (2 * n + p) * 2 ^ d)) j := by
    intro p hp j hj
    rw [hs (2 * q + p) j (by omega) hj, bitrev_succ, show (2 * q + p) % 2 = p by omega,
      show (2 * q + p) / 2 = q by omega, hstep]
    congr 1
    funext n
    congr 1
    ring
  have heven : ∀ j < 2 ^ c, s.workCell (lowCell (2 ^ c) q j)
      = radix2 s.twiddle c (2 * 2 ^ d) (fun n => x (bitrev q d + 2 * n * 2 ^ d)) j := fun j hj => by
    have h0 := hblock 0 (by decide) j hj
    simp only [Nat.add_zero] at h0
    rw [← h0, lowCell, show 2 * q * 2 ^ c = q * (2 * 2 ^ c) by ring]
  have hodd : ∀ j < 2 ^ c, s.turnedCell (2 ^ c) (2 ^ d) q j = turned (s.twiddle (j * 2 ^ d))
      (radix2 s.twiddle c (2 * 2 ^ d) (fun n => x (bitrev q d + (2 * n + 1) * 2 ^ d)) j) := fun j hj => by
    rw [← hblock 1 (by decide) j hj, State.turnedCell, lowCell,
      show (2 * q + 1) * 2 ^ c + j = q * (2 * 2 ^ c) + j + 2 ^ c by ring]
  rw [hpow]
  rcases Nat.lt_or_ge r (2 ^ c) with hlow | hhigh
  · rw [radix2_low _ _ _ hlow, ← heven r hlow, ← hodd r hlow]
    exact h.low q r hlow hq
  · obtain ⟨j, rfl⟩ : ∃ j, r = j + 2 ^ c := ⟨r - 2 ^ c, by omega⟩
    have hj : j < 2 ^ c := by omega
    rw [radix2_high _ _ _ hj, ← heven j hj, ← hodd j hj, ← Nat.add_assoc]
    exact h.high q j hj hq

/-- `t` is `s`, the permuted numbers `x`, after `c` of the `b` stages. -/
structure StagesDone (b : Nat) (s : State) (x : Nat → F32 × F32) (c : Nat) (t : State) : Prop where
  work : WorkOnly s t
  blocks : ∀ d, c + d = b → t.blocksTransformed s.twiddle x c d

section
variable {s : State} {b : Nat} (hr : s.running = true) (hwf : s.mem.wf = true) (hb : s.cfg.win.toNat = 2 ^ b)
include hr hb

/-- One stage more. -/
theorem StagesDone.stage {x : Nat → F32 × F32} {c : Nat} {t : State} (h : StagesDone b s x c t) (hc : c < b) :
    ∃ u, fftStage (2 ^ b) (c + 1) t = .ok () u ∧ StagesDone b s x (c + 1) u := by
  obtain ⟨d, rfl⟩ : ∃ d, b = c + 1 + d := ⟨b - (c + 1), by omega⟩
  obtain ⟨u, hu, hstage⟩ := fftStage_apply (h.work.running hr) (by rwa [h.work.win]) h.work.wf
  refine ⟨u, hu, h.work.trans hstage.work, fun d' hd => ?_⟩
  obtain rfl : d' = d := by omega
  have hblocks := h.blocks (d' + 1) (by omega)
  rw [← h.work.twiddle] at hblocks ⊢
  exact hstage.blocksTransformed hblocks

include hwf

/-- The stages after the permutation (R162). -/
theorem fftStages_apply {x : Nat → F32 × F32} (hx : ∀ k, k < 2 ^ b → s.workCell k = x (bitrev k b)) :
    ∃ u, forFrom b 1 (fun st => fftStage (2 ^ b) st) s = .ok () u ∧ StagesDone b s x b u := by
  have hpermuted : StagesDone b s x 0 s := by
    refine ⟨.refl hwf, fun d hd q r hq hr' => ?_⟩
    obtain rfl : d = b := by omega
    obtain rfl : r = 0 := by omega
    rw [radix2_zero, Nat.pow_zero, Nat.mul_one, Nat.add_zero, Nat.zero_mul, Nat.add_zero]
    exact hx q hq
  have hstage : ∀ st t, 1 ≤ st → st < 1 + b → StagesDone b s x (st - 1) t →
      ∃ u, fftStage (2 ^ b) st t = .ok () u ∧ StagesDone b s x (st + 1 - 1) u := by
    intro st t hst hle ht
    obtain ⟨c, rfl⟩ : ∃ c, st = c + 1 := ⟨st - 1, by omega⟩
    exact ht.stage hr hb (by omega)
  obtain ⟨u, hu, hdone⟩ := forFrom_ok (P := fun st => StagesDone b s x (st - 1)) b 1 hstage hpermuted
  exact ⟨u, hu, by rwa [Nat.add_sub_cancel_left] at hdone⟩

/-- `AnFft` on a window whose length is a power of two: the radix-2 transform of the work buffer (R162). -/
theorem anFft_apply :
    ∃ u, anFft s = .ok () u ∧ WorkOnly s u
      ∧ ∀ k, k < 2 ^ b → u.workCell k = radix2 s.twiddle b 1 s.workCell k := by
  obtain ⟨t, ht, hst, hpermuted⟩ := anPermute_apply hr hwf hb
  obtain ⟨u, hu, hstages⟩ := fftStages_apply (hst.running hr) hst.wf (by rw [hst.win, hb]) hpermuted
  refine ⟨u, ?_, hst.trans hstages.work, fun k hk => ?_⟩
  · unfold anFft
    rw [M.bind_of_ok (M.get_apply s), hb]
    simp only [Nat.log2_two_pow]
    rw [M.bind_of_ok ht]
    exact hu
  · have h := hstages.blocks 0 rfl 0 k Nat.one_pos hk
    simpa only [hst.twiddle, bitrev, Nat.zero_mul, Nat.zero_add, Nat.pow_zero, Nat.mul_one] using h

end

end Sys2Proof.Machine

open Sys2Proof Sys2Proof.Machine

/-- Settles O34: after the last stage one block is left, the whole transform. -/
theorem transformIsRadix2 : Obligations.TransformIsRadix2 := by
  intro s b hr hwf hb
  obtain ⟨u, hu, hwork, hcells⟩ := anFft_apply hr hwf hb
  have hframe := hwork.cells
  rw [hb] at hframe
  exact ⟨u, hu, hcells, hframe, hwork.memOnly.1⟩
end

section
/-! SUPPORT. The peak of a spectrum: the scan ends with the one bin that no other beats (43_analyzer.md R163). -/

namespace Sys2Proof.Machine

/-! ## The comparison (00_scope.md R9) -/

theorem fgt_iff {a b : F32} : fgt a b = true ↔ isNaN a = false ∧ isNaN b = false ∧ fUnits b < fUnits a := by
  unfold fgt ordered
  rw [Bool.and_eq_true, Bool.and_eq_true, Bool.not_eq_true', Bool.not_eq_true', decide_eq_true_eq, and_assoc]

theorem fgt_self (a : F32) : fgt a a = false :=
  Bool.eq_false_of_not_eq_true fun h => lt_irrefl _ (fgt_iff.1 h).2.2

theorem fgt_trans {a b c : F32} (hab : fgt a b = true) (hbc : fgt b c = true) : fgt a c = true := by
  obtain ⟨ha, -, hba⟩ := fgt_iff.1 hab
  obtain ⟨-, hc, hcb⟩ := fgt_iff.1 hbc
  exact fgt_iff.2 ⟨ha, hc, hcb.trans hba⟩

/-- What is greater than a number is greater than, or cannot be compared with, all that the number is not less than. -/
theorem fgt_or_isNaN {a b c : F32} (hab : fgt a b = true) (hcb : fgt c b = false) :
    fgt a c = true ∨ isNaN c = true := by
  cases hc : isNaN c with
  | true => exact .inr rfl
  | false =>
    obtain ⟨ha, hb, hba⟩ := fgt_iff.1 hab
    have hle : ¬ fUnits b < fUnits c := fun hbc => by
      rw [fgt_iff.2 ⟨hc, hb, hbc⟩] at hcb
      cases hcb
    exact .inl (fgt_iff.2 ⟨ha, hc, by omega⟩)

/-! ## The scan -/

/-- Bin `k` is the one the scan of the first `n` bins ends with. -/
structure State.PeakBelow (s : State) (n k : Nat) : Prop where
  lt : k < n
  zero : isNaN (s.binMag 0) = true → k = 0
  top : ∀ b, b < n → fgt (s.binMag b) (s.binMag k) = false
  first : ∀ b, b < k → fgt (s.binMag k) (s.binMag b) = true ∨ isNaN (s.binMag b) = true

theorem State.peakBin_iff {s : State} {k : Nat} : s.peakBin k ↔ s.PeakBelow (s.cfg.win.toNat / 2) k :=
  ⟨fun ⟨hlt, hzero, htop, hfirst⟩ => ⟨hlt, hzero, htop, hfirst⟩,
    fun ⟨hlt, hzero, htop, hfirst⟩ => ⟨hlt, hzero, htop, hfirst⟩⟩

namespace State.PeakBelow
variable {s : State} {n k k' : Nat}

theorem one (s : State) : s.PeakBelow 1 0 where
  lt := Nat.one_pos
  zero _ := rfl
  top b hb := by
    obtain rfl : b = 0 := by omega
    exact fgt_self _
  first b hb := absurd hb (Nat.not_lt_zero b)

/-- The next bin is not greater. -/
theorem keep (h : s.PeakBelow n k) (hn : fgt (s.binMag n) (s.binMag k) = false) : s.PeakBelow (n + 1) k where
  lt := h.lt.trans (Nat.lt_succ_self n)
  zero := h.zero
  top b hb := by
    rcases Nat.lt_succ_iff_lt_or_eq.1 hb with hlt | rfl
    · exact h.top b hlt
    · exact hn
  first := h.first

/-- The next bin is greater. -/
theorem move (h : s.PeakBelow n k) (hn : fgt (s.binMag n) (s.binMag k) = true) : s.PeakBelow (n + 1) n where
  lt := Nat.lt_succ_self n
  zero hnan := by
    rw [h.zero hnan, fgt_of_nan hnan] at hn
    cases hn
  top b hb := by
    rcases Nat.lt_succ_iff_lt_or_eq.1 hb with hlt | rfl
    · refine Bool.eq_false_of_not_eq_true fun hbn => ?_
      have hbk := h.top b hlt
      rw [fgt_trans hbn hn] at hbk
      cases hbk
    · exact fgt_self _
  first b hb := fgt_or_isNaN hn (h.top b hb)

/-- A higher bin is no second peak: it would beat this one, or this one be a NaN and so be bin 0. -/
theorem not_lt (h : s.PeakBelow n k) (h' : s.PeakBelow n k') : ¬ k < k' := by
  intro hlt
  have hnan : isNaN (s.binMag k) = true := by
    refine (h'.first k hlt).resolve_left ?_
    rw [h.top k' h'.lt]
    exact Bool.false_ne_true
  have hzero : isNaN (s.binMag 0) = true := by
    rcases Nat.eq_zero_or_pos k with rfl | hpos
    · exact hnan
    · refine (h.first 0 hpos).resolve_left fun hgt => ?_
      rw [(fgt_iff.1 hgt).1] at hnan
      cases hnan
  have := h'.zero hzero
  omega

theorem unique (h : s.PeakBelow n k) (h' : s.PeakBelow n k') : k' = k := by
  have := h.not_lt h'
  have := h'.not_lt h
  omega

/-- The scan of `m` bins from `n` on (R163). -/
theorem search (hr : s.running = true) (m : Nat) (h : s.PeakBelow n k) (hm : n + m ≤ s.cfg.win.toNat) :
    ∃ k', s.PeakBelow (n + m) k' ∧ peakSearch m n k (s.binMag k) s = .ok k' s := by
  induction m generalizing n k with
  | zero => exact ⟨k, h, rfl⟩
  | succ m ih =>
    have hround : peakSearch (m + 1) n k (s.binMag k) s =
        if fgt (s.binMag n) (s.binMag k) = true then peakSearch m (n + 1) n (s.binMag n) s
        else peakSearch m (n + 1) k (s.binMag k) s := by
      rw [peakSearch, M.bind_of_ok (binMagnitude_apply hr (by omega)), M.ite_apply]
    rw [hround, show n + (m + 1) = n + 1 + m by omega]
    split
    next hgt => exact ih (h.move hgt) (by omega)
    next hle => exact ih (h.keep (Bool.eq_false_of_not_eq_true hle)) (by omega)

end State.PeakBelow

section
variable {s : State} (hr : s.running = true) (hwin : 2 ≤ s.cfg.win.toNat)
include hr hwin

/-- The scan of all bins ends with the peak. -/
theorem peakSearch_peakBin :
    ∃ k, s.peakBin k ∧ peakSearch (s.cfg.win.toNat / 2 - 1) 1 0 (s.binMag 0) s = .ok k s := by
  obtain ⟨k, hk, hsearch⟩ := (State.PeakBelow.one s).search hr (s.cfg.win.toNat / 2 - 1) (by omega)
  rw [show 1 + (s.cfg.win.toNat / 2 - 1) = s.cfg.win.toNat / 2 by omega] at hk
  exact ⟨k, State.peakBin_iff.2 hk, hsearch⟩

/-- `AnPeak` on a spectrum with peak `k` (R163): the phase it had and the phase it has, and every phase stored. -/
theorem anPeak_of_peakBin {k : Nat} (hwf : s.mem.wf = true) (hk : s.peakBin k) :
    ∃ u, anPeak s = .ok ⟨k, s.peek .anPhase k, s.binPhase k⟩ (u.setAn { s.an with k := u32 k })
      ∧ MemOnly s u
      ∧ (∀ b, b < s.cfg.win.toNat / 2 → u.peek .anPhase b = s.binPhase b)
      ∧ s.sameMemoryBut u (fun sp _ => sp = .anPhase) := by
  obtain ⟨k', hk', hsearch⟩ := peakSearch_peakBin hr hwin
  obtain rfl : k' = k := (State.peakBin_iff.1 hk).unique (State.peakBin_iff.1 hk')
  have hlt := (State.peakBin_iff.1 hk).lt
  obtain ⟨u, hu, hmem, hphases, hrest⟩ := phaseLoop_apply hr hwf
  have hcell : k' < s.spaceSize .anPhase := by
    rw [spaceSize_of_running hr]
    exact hlt
  have hcell' : k' < (u.setAn { u.an with k := u32 k' }).spaceSize .anPhase := by
    rw [← hmem.spaceSize] at hcell
    exact hcell
  refine ⟨u, ?_, hmem, hphases, hrest⟩
  unfold anPeak
  rw [M.bind_of_ok (M.get_apply s), M.bind_of_ok (binMagnitude_apply hr (by omega)), M.bind_of_ok hsearch,
    M.bind_of_ok (loadCell_of_lt hcell), M.bind_of_ok hu, M.bind_of_ok (M.modify_apply _ _)]
  refine (M.bind_of_ok (loadCell_of_lt hcell')).trans ?_
  rw [← hphases k' hlt, ← hmem.an]
  rfl

end

/-! ## The spectrum -/

/-- A window of valid length, loaded, windowed and transformed (R160 to R162): the work buffer alone is written. -/
theorem anSpectrum_workOnly {s : State} {b : Nat} (hr : s.running = true) (hwf : s.mem.wf = true)
    (hb : s.cfg.win.toNat = 2 ^ b) : ∃ u, anSpectrum s = .ok () u ∧ WorkOnly s u := by
  obtain ⟨t, ht, hst⟩ := anLoad_workOnly hr hwf
  obtain ⟨u, hu, htu, -⟩ := anWindow_apply (hst.running hr) hst.wf
  have hsu := hst.trans htu
  obtain ⟨v, hv, huv, -⟩ := anFft_apply (hsu.running hr) hsu.wf (by rw [hsu.win, hb])
  refine ⟨v, ?_, hsu.trans huv⟩
  unfold anSpectrum anTransform
  rw [M.bind_of_ok ht, M.bind_of_ok hu]
  exact hv

/-- The length of the window in a running block (40_system_access.md R102). -/
theorem two_le_win {s : State} (hinv : Inv s) (hr : s.running = true) : 2 ≤ s.cfg.win.toNat := by
  obtain ⟨b, hb⟩ := window_of_valid (hinv.running hr).valid
  have := Nat.two_pow_pos b
  omega

end Sys2Proof.Machine

open Sys2Proof Sys2Proof.Machine

/-- Settles O35: the scan of the spectrum ends with the one peak. -/
theorem spectrumHasOnePeak : Obligations.SpectrumHasOnePeak := by
  intro s hinv hr
  obtain ⟨b, hb⟩ := window_of_valid (hinv.running hr).valid
  obtain ⟨u, hu, hwork⟩ := anSpectrum_workOnly hr hinv.memWf hb
  obtain ⟨k, hk, -⟩ := peakSearch_peakBin (hwork.running hr) (by rw [hwork.win]; exact two_le_win hinv hr)
  exact ⟨u, hu, hwork.cells, hwork.memOnly.1, hwork.wf, k, hk,
    fun k' hk' => (State.peakBin_iff.1 hk).unique (State.peakBin_iff.1 hk')⟩
end

section
/-! SUPPORT. AN.PROC from admission to response (43_analyzer.md R167, R168). -/

namespace Sys2Proof.Machine

/-! ## The analysis of a loaded spectrum -/

/-- `AnRun` after the transform (R167): the peak, the coarse estimate and the refinement. -/
def anMeasure : M F32 := do
  let pk ← anPeak
  let fEst ← anCoarse pk.k
  anRefine pk fEst

theorem anLoad_anRun_eq {α : Type} (f : F32 → M α) :
    (anLoad >>= fun _ => anRun >>= f) = anSpectrum >>= fun _ => anMeasure >>= f := by
  unfold anRun anSpectrum anTransform anMeasure
  simp only [bind_assoc]

/-- The analysis of the spectrum in `u`, up to the refinement: the phases are written and the registers are kept. -/
theorem anMeasure_of_peakBin {s u : State} {k : Nat} (hinv : Inv s) (hr : s.running = true) (hsu : WorkOnly s u)
    (hk : u.peakBin k) :
    ∃ m, anMeasure u
        = anRefine ⟨k, s.peek .anPhase k, u.binPhase k⟩ (coarseEstimate s.cfg k) (s.analysed m k)
      ∧ (∀ b, b < s.cfg.win.toNat / 2 → (s.analysed m k).peek .anPhase b = u.binPhase b)
      ∧ u.sameMemoryBut (s.analysed m k) (fun sp _ => sp = .anPhase) := by
  obtain ⟨w, hw, hmem, hphases, hrest⟩ := anPeak_of_peakBin (hsu.running hr)
    (by rw [hsu.win]; exact two_le_win hinv hr) hsu.wf hk
  rw [hsu.win] at hphases
  refine ⟨w.mem, ?_, hphases, hrest⟩
  have hstate : w.setAn { u.an with k := u32 k } = (s.setMem w.mem).setAn { s.an with k := u32 k } := by
    rw [(hsu.memOnly.trans hmem).1, hsu.memOnly.an]
    rfl
  unfold anMeasure
  rw [M.bind_of_ok hw, M.bind_of_ok (anCoarse_apply k _), hsu.peek (by decide) (by decide), hstate]
  rfl

/-- An analysis writes the memory and the analyzer's two registers. -/
theorem MemOnly.analysed_eq {s u : State} (h : MemOnly s u) (m : Memory) (k : Nat) :
    s.analysed m k = (u.setAn { s.an with k := u32 k, fEst := coarseEstimate s.cfg k }).setMem m := by
  rw [h.1]
  rfl

/-! ## The command -/

theorem outcomeOf_bind_of_raised {α : Type} {x : M α} {f : α → M (List Word)} {s t : State}
    (h : x s = .error .raised t) : outcomeOf (x >>= f) s = .next (t.respond .fault []) := by
  unfold outcomeOf
  rw [M.bind_of_error h]

section
variable {s : State} (hs : s.ready)
include hs

/-- AN.PROC in a ready block (R168): who owns the analyzer is checked first, then the length. -/
theorem exec_anProc_of_ready (len : Word) : exec (.anProc len) s =
    if (!s.ctl.anAuto && !s.an.busy) = true then
      if len = s.cfg.win then outcomeOf (anSpectrum >>= fun _ => anMeasure >>= fun f => pure [f]) s
      else .next ((s.setFault 3 len).respond .fault [])
    else .next (s.respond .errState []) := by
  have hexec : exec (.anProc len) s = execAnProc len s := rfl
  rw [hexec, execAnProc, workCommand_of_ready hs, outcomeOf_bind_of_ok (M.get_apply s), outcomeOf_require,
    ← anLoad_anRun_eq]
  refine if_congr Iff.rfl ?_ rfl
  dsimp only
  by_cases hlen : len = s.cfg.win
  · rw [if_pos hlen, if_neg (by simp [hlen])]
  · rw [if_neg hlen, if_pos (by simp [hlen]), outcomeOf_bind_of_raised (raiseFault_apply _ _ s),
      State.recordFault_of_none hs.2, FaultCause.code]

/-- AN.PROC on a window with peak `k` (R167): the estimate, or the fault of a refinement that does not converge. -/
theorem exec_anProc_of_peakBin {u : State} {k : Nat} (hinv : Inv s) (hauto : s.ctl.anAuto = false)
    (hbusy : s.an.busy = false) (hu : anSpectrum s = .ok () u) (hk : u.peakBin k) :
    ∃ t, exec (.anProc s.cfg.win) s
        = .next ((s.estimate u k).elim ((t.setFault 6 (u32 k)).respond .fault []) fun f => t.respond .ok [f])
      ∧ (∀ b, b < s.cfg.win.toNat / 2 → t.peek .anPhase b = u.binPhase b)
      ∧ u.sameMemoryBut t (fun sp _ => sp = .anPhase)
      ∧ t = (u.setAn { s.an with k := u32 k, fEst := coarseEstimate s.cfg k }).setMem t.mem := by
  obtain ⟨b, hb⟩ := window_of_valid (hinv.running hs.1).valid
  obtain ⟨u', hu', hwork⟩ := anSpectrum_workOnly hs.1 hinv.memWf hb
  cases hu.symm.trans hu'
  obtain ⟨m, hmeasure, hphases, hframe⟩ := anMeasure_of_peakBin hinv hs.1 hwork hk
  refine ⟨s.analysed m k, ?_, hphases, hframe, hwork.memOnly.analysed_eq m k⟩
  rw [exec_anProc_of_ready hs, if_pos (by rw [hauto, hbusy]; rfl), if_pos rfl]
  unfold outcomeOf
  rw [M.bind_of_ok hu, M.bind_apply, hmeasure]
  cases hest : s.estimate u k with
  | some f =>
    rw [anRefine_of_some (show refined (s.analysed m k).cfg _ _ = some f from hest)]
    rfl
  | none =>
    rw [anRefine_of_none (show refined (s.analysed m k).cfg _ _ = none from hest),
      State.recordFault_of_none (show (s.analysed m k).fault = 0 from hs.2)]
    rfl

end

end Sys2Proof.Machine

open Sys2Proof Sys2Proof.Machine

/-- Settles O37: the refinement of the one peak converges. -/
theorem analysisCompletes : Obligations.AnalysisCompletes := by
  intro s u k f hinv hs hauto hbusy hu hk hest
  obtain ⟨t, hexec, hrest⟩ := exec_anProc_of_peakBin hs hinv hauto hbusy hu hk
  rw [hest, Option.elim_some] at hexec
  exact ⟨t, hexec, hrest⟩

/-- Settles O38: the refinement of the one peak does not converge, after the phases have been stored. -/
theorem analysisDoesNotConverge : Obligations.AnalysisDoesNotConverge := by
  intro s u k hinv hs hauto hbusy hu hk hest
  obtain ⟨t, hexec, hrest⟩ := exec_anProc_of_peakBin hs hinv hauto hbusy hu hk
  rw [hest, Option.elim_none] at hexec
  exact ⟨t, hexec, hrest⟩

/-- Settles O32: the two checks of AN.PROC, in their order. -/
theorem analyzerTurnedAway : Obligations.AnalyzerTurnedAway := by
  intro s len hs
  refine ⟨fun howned => ?_, fun hauto hbusy hlen => ?_⟩
  · rw [exec_anProc_of_ready hs, if_neg]
    rcases howned with h | h <;> simp [h]
  · rw [exec_anProc_of_ready hs, if_pos (by rw [hauto, hbusy]; rfl), if_neg hlen]
end

section
/-! SUPPORT. What the voice commands do in a ready block (spec/44_voice_engine.md R190 to R194). -/

namespace Sys2Proof.Machine

/-! ## The operand check (R191, R192, R194) -/

theorem requireVoice_apply (v : Nat) (s : State) :
    requireVoice v s = require (decide (v < s.cfg.nv.toNat)) .errOperand s := rfl

theorem outcomeOf_congr {x y : M (List Word)} {s : State} (h : x s = y s) : outcomeOf x s = outcomeOf y s := by
  unfold outcomeOf
  rw [h]

theorem outcomeOf_requireVoice (v : Nat) (f : Unit → M (List Word)) (s : State) :
    outcomeOf (requireVoice v >>= f) s
      = if v < s.cfg.nv.toNat then outcomeOf (f ()) s else .next (s.respond .errOperand []) := by
  rw [outcomeOf_congr (M.bind_congr_left (requireVoice_apply v s)), outcomeOf_require]
  exact if_congr decide_eq_true_iff rfl rfl

theorem State.hasVoice_iff {s : State} {v : Nat} : s.hasVoice v = true ↔ v < s.cfg.nv.toNat ∧ v < 256 := by
  unfold State.hasVoice
  rw [Bool.and_eq_true, decide_eq_true_eq, decide_eq_true_eq]

/-! ## The pseudocode of one voice (R190, R193) -/

/-- All that setting a rate can do (R190). -/
theorem voiceSetRate_cases (v : Nat) (p : Word) (s : State) :
    (s.hasVoice v = true ∧ voiceSetRate v p s = .ok () (s.setVoice v ((s.voice v).withRate p)))
      ∨ ∃ f, voiceSetRate v p s = .error (.fault f) s := by
  unfold voiceSetRate
  rcases voiceAt_cases v s with ⟨hv, hx⟩ | ⟨-, hx⟩
  · rw [M.bind_of_ok hx]
    exact .inl ⟨hv, putVoice_of_has hv⟩
  · exact .inr ⟨_, M.bind_of_error hx⟩

/-- All that playing a voice can do (R193): a sample and the advance, a fault of the block, or a stop of the model's own
(logs 9 and 10). -/
theorem voiceNext_cases (v : Nat) (s : State) :
    (∃ y, voiceNext v s = .ok y (s.setVoice v (s.voice v).advance))
      ∨ (∃ c i, voiceNext v s = .error .raised (s.recordFault c i))
      ∨ ∃ f, voiceNext v s = .error (.fault f) s := by
  rcases voiceAt_cases v s with ⟨hv, hx⟩ | ⟨-, hx⟩
  case inr => exact .inr (.inr ⟨_, M.bind_of_error hx⟩)
  by_cases hready : (s.voice v).waveSet = true ∧ (s.voice v).rateSet = true
  case neg =>
    rw [not_and_or, Bool.not_eq_true, Bool.not_eq_true] at hready
    exact .inr (.inl ⟨_, _, voiceNext_notReady hv hready⟩)
  cases hpos : floorU (s.voice v).position (s.voice v).actLen with
  | none => exact .inr (.inl ⟨_, _, voiceNext_index hv hready.1 hready.2 hpos⟩)
  | some i =>
    unfold voiceNext
    rw [M.bind_of_ok hx, M.ite_of_false (by simp [hready]), hpos]
    dsimp only
    rw [M.bind_of_ok (M.get_apply s)]
    rcases loadCell_cases .vbuf (vbufIndex s.cfg.wt.toNat v (s.voice v).act i) s with ⟨-, ha⟩ | ⟨-, ha⟩
    case inr => exact .inr (.inr ⟨_, M.bind_of_error ha⟩)
    rw [M.bind_of_ok ha]
    rcases loadCell_cases .vbuf
      (vbufIndex s.cfg.wt.toNat v (s.voice v).act ((i + 1) % (s.voice v).actLen.toNat)) s with ⟨-, hb⟩ | ⟨-, hb⟩
    case inr => exact .inr (.inr ⟨_, M.bind_of_error hb⟩)
    rw [M.bind_of_ok hb, M.bind_of_ok (putVoice_of_has hv)]
    exact .inl ⟨_, rfl⟩

/-! ## V.SETRATE and V.NEXT in a ready block (R191, R194) -/

section
variable {s : State} (hs : s.ready)
include hs

theorem exec_vSetRate_of_ready (v : Nat) (p : Word) : exec (.vSetRate v p) s =
    if v < s.cfg.nv.toNat then
      if 1 ≤ p.toNat then outcomeOf (voiceSetRate v p >>= fun _ => pure []) s
      else .next (s.respond .errOperand [])
    else .next (s.respond .errOperand []) := by
  have hexec : exec (.vSetRate v p) s = execVSetRate v p s := rfl
  rw [hexec, execVSetRate, workCommand_of_ready hs, outcomeOf_requireVoice, outcomeOf_require]
  exact if_congr Iff.rfl (if_congr decide_eq_true_iff rfl rfl) rfl

theorem exec_vNext_of_ready (v : Nat) : exec (.vNext v) s =
    if v < s.cfg.nv.toNat then outcomeOf (voiceNext v >>= fun y => pure [y]) s
    else .next (s.respond .errOperand []) := by
  have hexec : exec (.vNext v) s = execVNext v s := rfl
  rw [hexec, execVNext, workCommand_of_ready hs, outcomeOf_requireVoice]

theorem exec_vNext_of_raised {v : Nat} (hv : s.hasVoice v = true) {c : FaultCause}
    (h : voiceNext v s = .error .raised (s.recordFault c (u32 v))) :
    exec (.vNext v) s = .next ((s.setFault c.code (u32 v)).respond .fault []) := by
  rw [exec_vNext_of_ready hs, if_pos (State.hasVoice_iff.1 hv).1, outcomeOf_bind_of_raised h,
    State.recordFault_of_none hs.2]

end

end Sys2Proof.Machine

open Sys2Proof Sys2Proof.Machine

/-- Settles O39: the two checks of V.SETRATE, then the three registers of the voice. -/
theorem rateSet : Obligations.RateSet := by
  intro s v p hs
  refine ⟨fun hv hp => ?_, fun hrefused => ?_⟩
  · have hset : voiceSetRate v p s = .ok () (s.setVoice v ((s.voice v).withRate p)) :=
      (M.bind_of_ok (voiceAt_of_has hv)).trans (putVoice_of_has hv)
    rw [exec_vSetRate_of_ready hs, if_pos (State.hasVoice_iff.1 hv).1, if_pos hp, outcomeOf_andThen_pure hset]
    rfl
  · rw [exec_vSetRate_of_ready hs]
    rcases hrefused with hv | rfl
    · rw [if_neg (Nat.not_lt.2 hv)]
    · rw [if_neg (show ¬ 1 ≤ (0 : Word).toNat by decide), ite_self]

/-- Settles O41: a voice that can play gives its sample and advances. -/
theorem voicePlaysAndAdvances : Obligations.VoicePlaysAndAdvances := by
  intro s v hs hplays
  have hexec : exec (.vNext v) s = .next ((s.setVoice v (s.voice v).advance).respond .ok [s.voiceSample v]) := by
    rw [exec_vNext_of_ready hs, if_pos (State.hasVoice_iff.1 hplays.1).1]
    exact outcomeOf_map_of_ok (g := fun y => [y]) (voiceNext_of_plays hs.1 hplays)
  exact hexec

/-- Settles O42: the checks of the pseudocode in their order, after the check of the operand. -/
theorem voiceFaults : Obligations.VoiceFaults := by
  intro s v hs
  refine ⟨fun hv hready => ?_, fun hv hwave hrate hpos => ?_, fun hv => ?_⟩
  · exact exec_vNext_of_raised hs hv (voiceNext_notReady hv hready)
  · exact exec_vNext_of_raised hs hv (voiceNext_index hv hwave hrate hpos)
  · rw [exec_vNext_of_ready hs, if_neg (Nat.not_lt.2 hv)]
end

section
/-! SUPPORT. V.SETWAVE: the staged samples go to the buffer that is not played (spec/44_voice_engine.md R192). -/

namespace Sys2Proof.Machine

/-- Loops whose rounds do the same in every state that keeps `P` do the same. -/
theorem forFrom_congr {P : State → Prop} {f g : Nat → M Unit} (hfg : ∀ i t, P t → f i t = g i t)
    (hg : ∀ i, Keeps P (g i)) (n a : Nat) {s : State} (hs : P s) : forFrom n a f s = forFrom n a g s := by
  induction n generalizing a s with
  | zero => rfl
  | succ n ih =>
    rw [forFrom_succ, forFrom_succ, M.bind_congr_left (hfg a s hs), M.bind_apply, M.bind_apply]
    cases hga : g a s with
    | ok b t => exact ih (a + 1) ((hg a s hs).1 b t hga)
    | error e t => rfl

/-- The first cell of the buffer of voice `v` that is not played (R192). -/
def State.swapBase (s : State) (v : Nat) : Nat := vbufIndex s.cfg.wt.toNat v (!(s.voice v).act) 0

theorem State.vbufIndex_swap (s : State) (v i : Nat) :
    vbufIndex s.cfg.wt.toNat v (!(s.voice v).act) i = s.swapBase v + i := rfl

/-- The state in which `len` samples are queued for voice `v` and nothing else is changed (R192). -/
structure State.Queued (s : State) (v : Nat) (len : Word) (t : State) : Prop where
  copied : ∀ i, i < len.toNat → t.peek .vbuf (s.swapBase v + i) = s.peek .wstage i
  cells : s.sameMemoryBut t (fun sp i => sp = .vbuf ∧ s.swapBase v ≤ i ∧ i < s.swapBase v + len.toNat)
  registers : t = (s.setMem t.mem).setVoice v ((s.voice v).withWave len)

/-- `VoiceSetWaveform` with a length that the buffers hold (R192). -/
theorem voiceSetWaveform_apply {s : State} {v : Nat} {len : Word} (hr : s.running = true) (hwf : s.mem.wf = true)
    (hv : s.hasVoice v = true) (hlen : len.toNat ≤ s.cfg.wt.toNat) :
    ∃ t, voiceSetWaveform v len s = .ok () t ∧ s.Queued v len t := by
  have hsize := spaceSize_of_running hr
  obtain ⟨u, hu, hmem, hcopied, hrest⟩ := copyLoop (s := s) (a := .wstage) (b := .vbuf) (n := len.toNat)
    (f := fun i => i) (g := vbufIndex s.cfg.wt.toNat v (!(s.voice v).act)) (by decide) hwf
    (fun i hi => by rw [hsize]; exact hi.trans_le hlen)
    (fun i hi => by rw [hsize]; exact vbufIndex_lt (State.hasVoice_iff.1 hv).1 (hi.trans_le hlen))
    (fun i j _ _ hij => Nat.add_left_cancel hij)
  have hloop := forFrom_congr (P := fun t => t.cfg = s.cfg)
    (f := fun i => do
      let w ← loadCell .wstage i
      let t ← get
      storeCell .vbuf (vbufIndex t.cfg.wt.toNat v (!(s.voice v).act) i) w)
    (g := fun i => loadCell .wstage i >>= fun w => storeCell .vbuf (vbufIndex s.cfg.wt.toNat v (!(s.voice v).act) i) w)
    (fun i t ht => by
      rw [M.bind_apply, M.bind_apply]
      rcases loadCell_cases .wstage i t with ⟨-, hw⟩ | ⟨-, hw⟩
      · rw [hw]; dsimp only; rw [M.bind_of_ok (M.get_apply t), ht]
      · rw [hw])
    (fun i => keeps_bind (keeps_loadCell _ _ _) fun w => keeps_storeCell fun _ _ ht => ht) len.toNat 0 rfl
  refine ⟨u.setVoice v ((s.voice v).withWave len), ?_, hcopied, fun sp i hi => hrest sp i ?_, ?_⟩
  · unfold voiceSetWaveform
    rw [M.bind_of_ok (voiceAt_of_has hv), M.bind_of_ok (hloop.trans hu)]
    refine putVoice_of_has ?_
    rw [State.hasVoice_iff, hmem.cfg]
    exact State.hasVoice_iff.1 hv
  · by_contra! hin
    obtain ⟨hsp, j, hj, hji⟩ := hin
    rw [s.vbufIndex_swap] at hji
    exact hi ⟨hsp, by omega⟩
  · rw [State.setVoice_mem, ← hmem.1]

theorem exec_vSetWave_of_ready {s : State} (hs : s.ready) (v : Nat) (len : Word) : exec (.vSetWave v len) s =
    if v < s.cfg.nv.toNat then
      if 1 ≤ len.toNat ∧ len.toNat ≤ s.cfg.wt.toNat then outcomeOf (voiceSetWaveform v len >>= fun _ => pure []) s
      else .next (s.respond .errOperand [])
    else .next (s.respond .errOperand []) := by
  have hexec : exec (.vSetWave v len) s = execVSetWave v len s := rfl
  rw [hexec, execVSetWave, workCommand_of_ready hs, outcomeOf_requireVoice,
    outcomeOf_bind_of_ok (M.get_apply s), outcomeOf_require]
  refine if_congr Iff.rfl (if_congr ?_ rfl rfl) rfl
  rw [Bool.and_eq_true, decide_eq_true_eq, decide_eq_true_eq]

end Sys2Proof.Machine

open Sys2Proof Sys2Proof.Machine

/-- Settles O40: the two checks of V.SETWAVE, then the copy into the other buffer. -/
theorem waveQueued : Obligations.WaveQueued := by
  intro s v len hs hwf
  refine ⟨fun hv hone hlen => ?_, fun hrefused => ?_⟩
  · obtain ⟨t, ht, hqueued⟩ := voiceSetWaveform_apply hs.1 hwf hv hlen
    refine ⟨t, ?_, hqueued.copied, hqueued.cells, hqueued.registers⟩
    rw [exec_vSetWave_of_ready hs, if_pos (State.hasVoice_iff.1 hv).1, if_pos ⟨hone, hlen⟩]
    exact outcomeOf_andThen_pure ht
  · rw [exec_vSetWave_of_ready hs]
    rcases hrefused with hv | rfl | hlen
    · rw [if_neg (Nat.not_lt.2 hv)]
    · rw [if_neg (c := 1 ≤ (0 : Word).toNat ∧ _) (fun h => absurd h.1 (by decide)), ite_self]
    · rw [if_neg (c := 1 ≤ len.toNat ∧ _) (fun h => absurd h.2 (Nat.not_le.2 hlen)), ite_self]
end

section
/-! SUPPORT. ENG.PROC in a ready block: the voices play in the tracked state (spec/44_voice_engine.md R196, R197). -/

namespace Sys2Proof.Machine

theorem State.assigned_fault (s : State) (y : Cycle) : (s.assigned y).fault = s.fault := by
  rcases s.assigned_cases y with hy | hy
  · rw [hy]
  · rw [hy]; rfl

theorem State.tracked_fault (s : State) (x : F32) : (s.tracked x).fault = s.fault := by
  rw [State.tracked, State.assigned_fault, State.track_fault]

theorem exec_engProc_of_ready {s : State} (hs : s.ready) (x : F32) :
    exec (.engProc x) s = outcomeOf (engProcess x >>= fun y => pure [y]) s := by
  have hexec : exec (.engProc x) s = execEngProc x s := rfl
  rw [hexec, execEngProc, workCommand_of_ready hs]

section
variable {s : State} (hinv : Inv s) (hs : s.ready)
include hinv hs

/-- The engine's pseudocode is the mix in the tracked state. -/
theorem engProcess_of_ready (x : F32) :
    engProcess x s = mixVoices (s.tracked x).eng.amp s.cfg.nv.toNat 0 pzero (s.tracked x) := by
  have hb := InBounds.of_inv hinv hs.1
  rw [engProcess_apply hs.1 hb.ctWr (hb.hasVoice hb.rr), (hb.tracked x).cfg]

/-- The voices before `j` play, and voice `j` raises a fault: it is the fault of the command (R197). -/
theorem exec_engProc_of_raised {x : F32} {j : Nat} (hj : j < s.cfg.nv.toNat)
    (hplay : ∀ v, v < j → (s.tracked x).voicePlays v) {c : FaultCause}
    (hraise : voiceNext j ((s.tracked x).advancedTo j)
      = .error .raised (((s.tracked x).advancedTo j).recordFault c (u32 j))) :
    exec (.engProc x) s = .next ((((s.tracked x).advancedTo j).setFault c.code (u32 j)).respond .fault []) := by
  have hrun := ((InBounds.of_inv hinv hs.1).tracked x).running
  have hnone : ((s.tracked x).advancedTo j).fault = 0 := (s.tracked_fault x).trans hs.2
  rw [exec_engProc_of_ready hs, ← State.recordFault_of_none hnone]
  refine outcomeOf_bind_of_raised ?_
  rw [engProcess_of_ready hinv hs]
  exact mixVoices_of_raise hrun _ j hj hplay hraise

end
end Sys2Proof.Machine

open Sys2Proof Sys2Proof.Machine

/-- Settles O46: every voice plays in the tracked state. -/
theorem engineMixes : Obligations.EngineMixes := by
  intro s x hinv hs hplay
  have hrun := ((InBounds.of_inv hinv hs.1).tracked x).running
  rw [exec_engProc_of_ready hs]
  refine outcomeOf_map_of_ok (g := fun y => [y]) ?_
  rw [engProcess_of_ready hinv hs]
  exact mixVoices_of_play hrun _ hplay

/-- Settles O47: the voices before `j` have advanced, and voice `j` is still as it was tracked. -/
theorem engineFaults : Obligations.EngineFaults := by
  intro s x j hinv hs hj hplay
  have hhas : ((s.tracked x).advancedTo j).hasVoice j = true :=
    ((InBounds.of_inv hinv hs.1).tracked x).hasVoice hj
  have hvoice : ((s.tracked x).advancedTo j).voice j = (s.tracked x).voice j :=
    State.voice_advancedTo_ge _ le_rfl
  refine ⟨fun hready => exec_engProc_of_raised hinv hs hj hplay (voiceNext_notReady hhas ?_),
    fun hwave hrate hpos => exec_engProc_of_raised hinv hs hj hplay (voiceNext_index hhas ?_ ?_ ?_)⟩
  all_goals rw [hvoice]; assumption
end

section
/-! SUPPORT. How far a rounded result can lie from the exact one, and what the bound gives for numbers that are not
negative (spec/00_scope.md R7 to R10). -/

namespace Sys2Proof.Machine

/-! ## Patterns (R7) -/

section
variable (neg : Bool) {bits : Nat} (h : bits ≤ 0x7F800000)
include h

theorem withSign_toNat : (withSign neg bits).toNat = bits + if neg then 2 ^ 31 else 0 := by
  unfold withSign
  rw [BitVec.toNat_ofNat, Nat.mod_eq_of_lt (by split <;> omega)]

theorem fSign_withSign : fSign (withSign neg bits) = neg := by
  unfold fSign
  rw [withSign_toNat neg h]
  cases neg
  · rw [if_neg Bool.false_ne_true, decide_eq_false_iff_not]
    omega
  · rw [if_pos rfl, decide_eq_true_iff]
    omega

theorem fExp_withSign : fExp (withSign neg bits) = bits / 2 ^ 23 := by
  unfold fExp
  rw [withSign_toNat neg h]
  split <;> omega

theorem fFrac_withSign : fFrac (withSign neg bits) = bits % 2 ^ 23 := by
  unfold fFrac
  rw [withSign_toNat neg h]
  split <;> omega

theorem isNaN_withSign : isNaN (withSign neg bits) = false := by
  unfold isNaN
  rw [fExp_withSign neg h, fFrac_withSign neg h, Bool.and_eq_false_iff, beq_eq_false_iff_ne, bne_eq_false_iff_eq]
  omega

end

/-- The magnitude of the pattern for `r` units of the place `k`, where `r` may carry into the next binade. -/
theorem fMag_of_fields {a : F32} {k r : Nat} (hr : r ≤ 2 ^ 24) (hk : k = 0 ∨ 2 ^ 23 ≤ r)
    (hexp : fExp a = k + r / 2 ^ 23) (hfrac : fFrac a = r % 2 ^ 23) : fMag a = r * 2 ^ k := by
  unfold fMag
  rw [hexp, hfrac]
  rcases Nat.lt_or_ge r (2 ^ 23) with hsub | hnorm
  · obtain rfl : k = 0 := by omega
    rw [if_pos (by omega)]
    omega
  · rw [if_neg (by omega)]
    rcases Nat.lt_or_ge r (2 ^ 24) with hlt | hge
    · rw [show k + r / 2 ^ 23 - 1 = k by omega, show 2 ^ 23 + r % 2 ^ 23 = r by omega]
    · obtain rfl : r = 2 ^ 24 := by omega
      rw [show k + 2 ^ 24 / 2 ^ 23 - 1 = k + 1 by omega, Nat.pow_succ]
      omega

/-! ## Rounding (R8) -/

theorem roundDiv_le (num den : Nat) : 2 * (roundDiv num den * den) ≤ 2 * num + den := by
  have hdiv := Nat.div_add_mod' num den
  unfold roundDiv
  simp only
  split
  · rw [Nat.add_mul]
    omega
  · omega

theorem roundDiv_eq_or (num den : Nat) : roundDiv num den = num / den ∨ roundDiv num den = num / den + 1 := by
  unfold roundDiv
  simp only
  split
  · exact .inr rfl
  · exact .inl rfl

theorem roundDiv_of_dvd {num den : Nat} (h : den ∣ num) (hden : 0 < den) : roundDiv num den * den = num := by
  have hmod := Nat.mod_eq_zero_of_dvd h
  unfold roundDiv
  simp only
  rw [if_neg (by omega)]
  exact Nat.div_mul_cancel h

section
variable {num den : Nat} (hden : 0 < den)
include hden

/-- The quotient is less than `2^24` units of its last place. -/
theorem lt_roundShift : num < 2 ^ 24 * (den * 2 ^ roundShift num den) := by
  have hlog : num / den < 2 ^ (roundShift num den + 24) :=
    (Nat.lt_log2_self (n := num / den)).trans_le (Nat.pow_le_pow_right (by decide) (by unfold roundShift; omega))
  calc num < 2 ^ (roundShift num den + 24) * den := (Nat.div_lt_iff_lt_mul hden).1 hlog
    _ = 2 ^ 24 * (den * 2 ^ roundShift num den) := by rw [Nat.pow_add]; ring

/-- Unless the last place is the least there is, the quotient is at least `2^23` units of it. -/
theorem roundShift_le (h : roundShift num den ≠ 0) : 2 ^ 23 * (den * 2 ^ roundShift num den) ≤ num := by
  have hlog : 2 ^ (roundShift num den + 23) ≤ num / den := by
    unfold roundShift at h ⊢
    rw [← Nat.le_log2 (by rintro h0; rw [h0] at h; exact h rfl)]
    omega
  calc 2 ^ 23 * (den * 2 ^ roundShift num den) = 2 ^ (roundShift num den + 23) * den := by rw [Nat.pow_add]; ring
    _ ≤ num := (Nat.le_div_iff_mul_le hden).1 hlog

/-- The rounded quotient in units of its last place has 24 bits, or carries out of them. -/
theorem roundDiv_bits : roundDiv num (den * 2 ^ roundShift num den) ≤ 2 ^ 24
    ∧ (roundShift num den = 0 ∨ 2 ^ 23 ≤ roundDiv num (den * 2 ^ roundShift num den)) := by
  have hunit : 0 < den * 2 ^ roundShift num den := Nat.mul_pos hden (Nat.two_pow_pos _)
  have hlt := (Nat.div_lt_iff_lt_mul hunit).2 (lt_roundShift hden (num := num))
  have hround := roundDiv_eq_or num (den * 2 ^ roundShift num den)
  refine ⟨by omega, ?_⟩
  by_cases hk : roundShift num den = 0
  · exact .inl hk
  · have hle := (Nat.le_div_iff_mul_le hunit).2 (roundShift_le hden hk)
    exact .inr (by omega)

/-- The magnitude of a result is at most the rounded quotient: less when it overflows to infinity. -/
theorem fMag_roundTo_le (neg : Bool) : fMag (roundTo neg num den)
    ≤ roundDiv num (den * 2 ^ roundShift num den) * 2 ^ roundShift num den := by
  obtain ⟨htop, hbottom⟩ := roundDiv_bits hden (num := num)
  unfold roundTo roundBits
  simp only
  generalize roundShift num den = k at htop hbottom ⊢
  generalize roundDiv num (den * 2 ^ k) = r at htop hbottom ⊢
  rcases Nat.le_total (k * 2 ^ 23 + r) 0x7F800000 with hfits | hover
  · rw [Nat.min_eq_left hfits]
    refine (fMag_of_fields htop hbottom ?_ ?_).le
    · rw [fExp_withSign neg hfits]; omega
    · rw [fFrac_withSign neg hfits]; omega
  · have hinf : fMag (withSign neg 0x7F800000) = 2 ^ 24 * 2 ^ 253 :=
      fMag_of_fields le_rfl (.inr (by decide)) (fExp_withSign neg le_rfl) (fFrac_withSign neg le_rfl)
    rw [Nat.min_eq_right hover, hinf]
    rcases Nat.lt_or_ge k 254 with hk | hk
    · obtain ⟨rfl, rfl⟩ : k = 253 ∧ r = 2 ^ 24 := by omega
      exact le_rfl
    · have hpow : 2 ^ 254 ≤ 2 ^ k := Nat.pow_le_pow_right (by decide) hk
      calc 2 ^ 24 * 2 ^ 253 = 2 ^ 23 * 2 ^ 254 := by decide
        _ ≤ r * 2 ^ k := Nat.mul_le_mul (by omega) hpow

/-- A result whose exact value lies at least `m / 2^24` below `m` does not reach `m`: half a last place is less. -/
theorem fMag_roundTo_lt {m : Nat} (neg : Bool) (hm : 2 ^ 24 ≤ m) (h : num * 2 ^ 24 ≤ m * den * (2 ^ 24 - 1)) :
    fMag (roundTo neg num den) < m := by
  refine (fMag_roundTo_le hden neg).trans_lt ?_
  have herror := roundDiv_le num (den * 2 ^ roundShift num den)
  have hplace := roundShift_le hden (num := num)
  generalize roundShift num den = k at herror hplace ⊢
  generalize roundDiv num (den * 2 ^ k) = r at herror ⊢
  by_contra! hreach
  have hscaled : m * den ≤ r * (den * 2 ^ k) := by
    calc m * den ≤ r * 2 ^ k * den := Nat.mul_le_mul_right _ hreach
      _ = r * (den * 2 ^ k) := by ring
  have hmden : 2 ^ 24 * den ≤ m * den := Nat.mul_le_mul_right _ hm
  by_cases hk : k = 0
  · subst hk
    omega
  · have hplace := hplace hk
    omega

end

theorem fMag_roundTo_zero (neg : Bool) (den : Nat) : fMag (roundTo neg 0 den) = 0 := by
  have hbits : roundBits 0 den = 0 := by simp [roundBits, roundShift, roundDiv]
  rw [roundTo, hbits]
  cases neg <;> decide

theorem isNaN_roundTo (neg : Bool) (num den : Nat) : isNaN (roundTo neg num den) = false :=
  isNaN_withSign neg (Nat.min_le_right _ _)

theorem fSign_roundTo (neg : Bool) (num den : Nat) : fSign (roundTo neg num den) = neg :=
  fSign_withSign neg (Nat.min_le_right _ _)

/-! ## Numbers from +0.0 or -0.0 up to a bound -/

/-- `a` is a number of at least zero and of less than `m` units of 2^-149. -/
structure UnitsBelow (m : Nat) (a : F32) : Prop where
  number : isNaN a = false
  nonneg : 0 ≤ fUnits a
  below : fMag a < m

/-- A number that is not negative is its magnitude: with the sign bit set it is -0.0. -/
theorem fUnits_of_nonneg {a : F32} (h : 0 ≤ fUnits a) : fUnits a = fMag a := by
  unfold fUnits at h ⊢
  split at h
  · rw [if_pos ‹_›]; omega
  · rw [if_neg ‹_›]

theorem fUnits_nonneg_of {a : F32} (h : fSign a = true → fMag a = 0) : 0 ≤ fUnits a := by
  unfold fUnits
  split
  next hs => rw [h hs]; decide
  next => omega

/-- `[0, 1)` (10_state.md R29). -/
theorem inUnit_iff (a : F32) : inUnit a = true ↔ UnitsBelow (2 ^ 149) a := by
  have hone : fUnits fOne = 2 ^ 149 := by decide
  have hzero : fUnits pzero = 0 := by decide
  unfold inUnit fge flt ordered
  rw [hone, hzero, show isNaN pzero = false by decide, show isNaN fOne = false by decide]
  simp only [Bool.and_eq_true, Bool.not_eq_true', decide_eq_true_eq, Bool.not_false, and_true]
  constructor
  · rintro ⟨⟨hnumber, hnonneg⟩, -, hbelow⟩
    rw [fUnits_of_nonneg hnonneg] at hbelow
    exact ⟨hnumber, hnonneg, by omega⟩
  · rintro ⟨hnumber, hnonneg, hbelow⟩
    refine ⟨⟨hnumber, hnonneg⟩, hnumber, ?_⟩
    rw [fUnits_of_nonneg hnonneg]
    omega

/-- Below `2 ^ n` the last number lies a 24-bit place below it. -/
theorem fMag_le_of_lt {a : F32} {n : Nat} (h : fMag a < 2 ^ (n + 24)) : fMag a ≤ 2 ^ n * (2 ^ 24 - 1) := by
  have hfrac : fFrac a < 2 ^ 23 := Nat.mod_lt _ (by decide)
  have hplace := Nat.two_pow_pos n
  unfold fMag at h ⊢
  split at h
  case isTrue hexp => rw [if_pos hexp]; omega
  case isFalse hexp =>
    rw [if_neg hexp]
    have hle : fExp a - 1 ≤ n := by
      by_contra! hlt
      have hpow : 2 ^ (n + 1) ≤ 2 ^ (fExp a - 1) := Nat.pow_le_pow_right (by decide) hlt
      have hbig : 2 ^ 23 * 2 ^ (n + 1) ≤ (2 ^ 23 + fFrac a) * 2 ^ (fExp a - 1) := Nat.mul_le_mul (by omega) hpow
      rw [Nat.pow_succ (m := n)] at hbig
      rw [Nat.pow_add] at h
      omega
    calc (2 ^ 23 + fFrac a) * 2 ^ (fExp a - 1) ≤ (2 ^ 24 - 1) * 2 ^ n :=
          Nat.mul_le_mul (by omega) (Nat.pow_le_pow_right (by decide) hle)
      _ = 2 ^ n * (2 ^ 24 - 1) := Nat.mul_comm _ _

theorem UnitsBelow.isInf {m : Nat} {a : F32} (h : UnitsBelow m a) (hm : m ≤ 2 ^ 254) : isInf a = false := by
  unfold Machine.isInf
  rw [Bool.and_eq_false_iff, beq_eq_false_iff_ne]
  refine .inl fun hexp => ?_
  have hbig := fMag_of_fExp_eq hexp
  have hbelow := h.below
  omega

/-- A sum that is not negative and whose exact value lies at least `m / 2^24` below `m`. -/
theorem fadd_unitsBelow {a b : F32} {m : Nat} (hnan : isNaN a = false ∧ isNaN b = false)
    (hinf : isInf a = false ∧ isInf b = false) (h0 : 0 ≤ fUnits a + fUnits b) (hm : 2 ^ 24 ≤ m)
    (h : (fUnits a + fUnits b) * 2 ^ 24 ≤ m * (2 ^ 24 - 1)) : UnitsBelow m (fadd a b) := by
  have hzeros : UnitsBelow m nzero ∧ UnitsBelow m pzero :=
    ⟨⟨by decide, by decide, by rw [show fMag nzero = 0 by decide]; omega⟩,
      ⟨by decide, by decide, by rw [show fMag pzero = 0 by decide]; omega⟩⟩
  unfold fadd
  rw [hnan.1, hnan.2, hinf.1, hinf.2]
  simp only [Bool.or_false, Bool.false_eq_true, if_false]
  split
  · split
    · exact hzeros.1
    · exact hzeros.2
  · rw [decide_eq_false (by omega : ¬ fUnits a + fUnits b < 0)]
    refine ⟨isNaN_roundTo _ _ _, fUnits_nonneg_of fun hs => ?_, fMag_roundTo_lt Nat.one_pos _ hm (by omega)⟩
    rw [fSign_roundTo] at hs
    cases hs

/-! ## A voice (44_voice_engine.md R195) -/

/-- The advance changes the phase to the sum, less 1.0 when it wraps; a commit leaves the phase. -/
theorem Voice.advance_phase (v : Voice) : v.advance.phase =
    if fge (fadd v.phase v.inc) fOne = true then fsub (fadd v.phase v.inc) fOne else fadd v.phase v.inc := by
  unfold Voice.advance
  simp only
  split
  · split <;> rfl
  · rfl

/-- The sum of phase and increment is below 2.0. -/
theorem UnitsBelow.fadd_unit {a b : F32} (ha : UnitsBelow (2 ^ 149) a) (hb : UnitsBelow (2 ^ 149) b) :
    UnitsBelow (2 ^ 150) (fadd a b) := by
  have hae := fUnits_of_nonneg ha.nonneg
  have hbe := fUnits_of_nonneg hb.nonneg
  have hale := fMag_le_of_lt (n := 125) ha.below
  have hble := fMag_le_of_lt (n := 125) hb.below
  exact fadd_unitsBelow ⟨ha.number, hb.number⟩ ⟨ha.isInf (by decide), hb.isInf (by decide)⟩ (by omega) (by decide)
    (by omega)

/-- What is below 2.0 and not below 1.0 is below 1.0 when 1.0 is taken away. -/
theorem UnitsBelow.fsub_fOne {a : F32} (ha : UnitsBelow (2 ^ 150) a) (hone : fge a fOne = true) :
    UnitsBelow (2 ^ 149) (fsub a fOne) := by
  have hae := fUnits_of_nonneg ha.nonneg
  have hale := fMag_le_of_lt (n := 126) ha.below
  have hneg : fUnits (fneg fOne) = -2 ^ 149 := by decide
  have hle : (2 : Int) ^ 149 ≤ fUnits a := by
    unfold fge at hone
    have hunits := of_decide_eq_true (Bool.and_eq_true_iff.1 hone).2
    rwa [show fUnits fOne = 2 ^ 149 by decide] at hunits
  exact fadd_unitsBelow ⟨ha.number, by decide⟩ ⟨ha.isInf (by decide), by decide⟩ (by omega) (by decide) (by omega)

theorem UnitsBelow.of_not_fge {a : F32} {m : Nat} (ha : UnitsBelow m a) (hone : ¬ fge a fOne = true) :
    UnitsBelow (2 ^ 149) a := by
  refine ⟨ha.number, ha.nonneg, ?_⟩
  have hae := fUnits_of_nonneg ha.nonneg
  have hunits : fUnits fOne = 2 ^ 149 := by decide
  unfold fge ordered at hone
  rw [ha.number, show isNaN fOne = false by decide, hunits] at hone
  simp only [Bool.not_false, Bool.and_self, Bool.true_and, decide_eq_true_eq] at hone
  omega

/-- The place to which a length up to 2^24 is rounded divides it. -/
theorem roundShift_dvd {n : Nat} (hn : n ≤ 2 ^ 24) : 2 ^ roundShift (n * 2 ^ 149) 1 ∣ n * 2 ^ 149 := by
  rcases Nat.lt_or_ge (roundShift (n * 2 ^ 149) 1) 150 with hk | hk
  · exact Dvd.dvd.mul_left (Nat.pow_dvd_pow 2 (Nat.le_of_lt_succ hk)) n
  · have hplace := roundShift_le (num := n * 2 ^ 149) Nat.one_pos (by omega)
    have hpow : 2 ^ 150 ≤ 2 ^ roundShift (n * 2 ^ 149) 1 := Nat.pow_le_pow_right (by decide) hk
    obtain rfl : n = 2 ^ 24 := by omega
    decide

/-- A length up to 2^24 is converted exactly (R10); that it is not made greater is what counts here. -/
theorem fMag_u2f_le {n : Word} (hn : n.toNat ≤ 2 ^ 24) : fMag (u2f n) ≤ n.toNat * 2 ^ 149 := by
  have hexact := roundDiv_of_dvd (roundShift_dvd hn) (Nat.two_pow_pos _)
  have hle := fMag_roundTo_le (num := n.toNat * 2 ^ 149) Nat.one_pos false
  rw [Nat.one_mul, hexact] at hle
  exact hle

/-- The position of a phase in `[0, 1)` in a buffer of `len` cells (44_voice_engine.md R193). -/
theorem UnitsBelow.fmul_u2f {phase : F32} (hphase : UnitsBelow (2 ^ 149) phase) {len : Word} (hone : 1 ≤ len.toNat)
    (hlen : len.toNat ≤ 2 ^ 24) : UnitsBelow (len.toNat * 2 ^ 149) (fmul phase (u2f len)) := by
  have hu2f := fMag_u2f_le hlen
  have hfinite : UnitsBelow (2 ^ 254) (u2f len) :=
    ⟨isNaN_roundTo _ _ _, fUnits_nonneg_of fun hs => (nomatch (fSign_roundTo _ _ _).symm.trans hs), by omega⟩
  have hle := fMag_le_of_lt (n := 125) hphase.below
  have hproduct : fMag phase * fMag (u2f len) ≤ 2 ^ 125 * (2 ^ 24 - 1) * (len.toNat * 2 ^ 149) :=
    Nat.mul_le_mul hle hu2f
  unfold fmul
  rw [hphase.number, hfinite.number, hphase.isInf (by decide), hfinite.isInf le_rfl]
  simp only [Bool.or_self, Bool.false_eq_true, if_false]
  refine ⟨isNaN_roundTo _ _ _, fUnits_nonneg_of fun hs => ?_,
    fMag_roundTo_lt (by decide) _ (by omega) (by omega)⟩
  have hsign : fSign phase = true := by
    rw [fSign_roundTo, show fSign (u2f len) = false from fSign_roundTo _ _ _, bne_iff_ne] at hs
    simpa using hs
  have hzero : fMag phase = 0 := by
    have hnonneg := hphase.nonneg
    rw [fUnits, if_pos hsign] at hnonneg
    omega
  rw [hzero, Nat.zero_mul]
  exact fMag_roundTo_zero _ _

/-- A number below a length has its whole part below it (R10). -/
theorem UnitsBelow.floorU {a : F32} {len : Word} (h : UnitsBelow (len.toNat * 2 ^ 149) a) :
    ∃ i, floorU a len = some i ∧ i < len.toNat := by
  have hlt : fMag a / 2 ^ 149 < len.toNat := (Nat.div_lt_iff_lt_mul (Nat.two_pow_pos _)).2 h.below
  have hsmaller : flt a pzero = false := by
    unfold flt
    rw [decide_eq_false (by rw [show fUnits pzero = 0 by decide]; exact not_lt.2 h.nonneg), Bool.and_false]
  refine ⟨_, ?_, hlt⟩
  unfold Machine.floorU
  rw [h.number, hsmaller]
  exact if_neg (Nat.not_le.2 hlt)

end Sys2Proof.Machine

open Sys2Proof Sys2Proof.Machine

/-- Settles O43: the sum is below 2.0, and where it wraps 1.0 is taken away. -/
theorem phaseStaysInUnit : Obligations.PhaseStaysInUnit := by
  intro v hphase hinc
  rw [inUnit_iff] at hphase hinc ⊢
  have hsum := hphase.fadd_unit hinc
  rw [Voice.advance_phase]
  split
  case isTrue hwrap => exact hsum.fsub_fOne hwrap
  case isFalse hstays => exact hsum.of_not_fge hstays

/-- Settles O44: the rounded product of the phase and the length is below the length. -/
theorem positionInBuffer : Obligations.PositionInBuffer := by
  intro phase len hphase hone hlen
  rw [inUnit_iff] at hphase
  exact (hphase.fmul_u2f hone hlen).floorU
end

section
/-! SUPPORT. What each piece of the playback pseudocode can do from any state, and the properties of the state that the
pieces keep when their writes do (spec/44_voice_engine.md R196, 45_pipeline.md R220 to R224). -/

namespace Sys2Proof.Machine

/-! ## The pieces -/

/-- All that the tracker can do (42_cycle.md R145): its update, or a stop of the model's own before it (log 9). -/
theorem ctProcess_cases (x : F32) (s : State) :
    ctProcess x s = .ok (s.track x).2 (s.track x).1 ∨ ∃ f, ctProcess x s = .error (.fault f) s := by
  by_cases hcell : s.ct.wr.toNat < s.spaceSize .ring
  · have hr : s.running = true := by
      by_contra hr
      rw [State.spaceSize, if_neg hr] at hcell
      exact Nat.not_lt_zero _ hcell
    exact .inl (ctProcess_apply hr (by rwa [spaceSize_of_running hr] at hcell))
  · exact .inr ⟨_, ctProcess_of_noCell (Nat.not_lt.1 hcell)⟩

/-- All that the assignment of a period can do (R196). -/
theorem assignPeriod_cases (c : Cycle) (s : State) :
    assignPeriod c s = .ok () s
      ∨ assignPeriod c s = .ok () ((s.setVoice s.eng.rr.toNat ((s.voice s.eng.rr.toNat).withRate c.length)).setEng
          { s.eng with rr := incMod s.eng.rr s.cfg.nv })
      ∨ ∃ f, assignPeriod c s = .error (.fault f) s := by
  unfold assignPeriod
  rw [M.ite_apply]
  split
  case isFalse => exact .inl rfl
  rw [M.bind_of_ok (M.get_apply s)]
  rcases voiceSetRate_cases s.eng.rr.toNat c.length s with ⟨-, hset⟩ | ⟨f, hset⟩
  · rw [M.bind_of_ok hset]
    exact .inr (.inl rfl)
  · exact .inr (.inr ⟨f, M.bind_of_error hset⟩)

/-- The state with a sample written into the history (45_pipeline.md R221). -/
def State.historyWritten (s : State) (x : F32) : State :=
  (s.poke .hist s.pipe.hwr.toNat x).setPipe
    { hwr := incMod s.pipe.hwr s.cfg.hist
      fill := u32 (min (s.pipe.fill.toNat + 1) s.cfg.win.toNat)
      hopCnt := s.pipe.hopCnt + 1 }

/-- All that writing the history can do (R221). -/
theorem historyWrite_cases (x : F32) (s : State) :
    historyWrite x s = .ok () (s.historyWritten x) ∨ ∃ f, historyWrite x s = .error (.fault f) s := by
  unfold historyWrite
  rw [M.bind_of_ok (M.get_apply s)]
  rcases storeCell_cases .hist s.pipe.hwr.toNat x s with ⟨-, hstore⟩ | ⟨-, hstore⟩
  · rw [M.bind_of_ok hstore]
    exact .inl rfl
  · exact .inr ⟨_, M.bind_of_error hstore⟩

/-! ## The engine -/

/-- `P` is kept by every write of the engine after the tracker's (R190, R193, R196). -/
structure EngineKeeps (P : State → Prop) : Prop where
  rate : ∀ s v p, P s → P (s.setVoice v ((s.voice v).withRate p))
  advance : ∀ s v, P s → P (s.setVoice v (s.voice v).advance)
  roundRobin : ∀ s rr, P s → P (s.setEng { s.eng with rr := rr })
  fault : ∀ s c i, P s → P (s.recordFault c i)

namespace EngineKeeps
variable {P : State → Prop} (h : EngineKeeps P)
include h

theorem voiceSetRate (v : Nat) (p : Word) : Keeps P (voiceSetRate v p) := by
  refine .of_leaves fun s hs => ?_
  rcases voiceSetRate_cases v p s with ⟨-, hset⟩ | ⟨_, hset⟩
  · exact .of_ok hset (h.rate s v p hs)
  · exact .of_error hset hs

theorem voiceNext (v : Nat) : Keeps P (voiceNext v) := by
  refine .of_leaves fun s hs => ?_
  rcases voiceNext_cases v s with ⟨_, hnext⟩ | ⟨c, i, hnext⟩ | ⟨_, hnext⟩
  · exact .of_ok hnext (h.advance s v hs)
  · exact .of_error hnext (h.fault s c i hs)
  · exact .of_error hnext hs

theorem mixVoices (amp : F32) (n i : Nat) (acc : F32) : Keeps P (mixVoices amp n i acc) := by
  induction n generalizing i acc with
  | zero => exact keeps_pure P acc
  | succ n ih => exact keeps_bind (h.voiceNext i) fun _ => ih (i + 1) _

theorem assignPeriod (c : Cycle) : Keeps P (assignPeriod c) := by
  refine .of_leaves fun s hs => ?_
  rcases assignPeriod_cases c s with hassign | hassign | ⟨_, hassign⟩
  · exact .of_ok hassign hs
  · exact .of_ok hassign (h.roundRobin _ _ (h.rate s _ _ hs))
  · exact .of_error hassign hs

/-- The engine, from a state whose tracking keeps `P` (R196). -/
theorem engProcess {s : State} {x : F32} (hs : P s) (htrack : P (s.track x).1) :
    Leaves P (engProcess x) s (fun _ t => P t) := by
  rcases ctProcess_cases x s with hct | ⟨_, hct⟩
  · exact .bind_ok hct (Keeps.leaves (keeps_bind (h.assignPeriod _) fun _ => keeps_bind (keeps_get P) fun _ =>
      h.mixVoices _ _ _ _) htrack)
  · exact .of_error (M.bind_of_error hct) hs

end EngineKeeps

/-! ## The pipeline -/

/-- `P` is kept by every write of the pipeline between the history's and the tracker's (R220, R222). -/
structure WindowKeeps (P : State → Prop) : Prop where
  counters : ∀ s x, P s → P (s.setPipe x)
  slot : ∀ s i w, P s → P (s.poke .wmb i w)
  flag : ∀ s x, P s → P (s.setWmb x)

theorem WindowKeeps.publishWindow {P : State → Prop} (h : WindowKeeps P) : Keeps P publishWindow :=
  .of_leaves fun s hs => .bind_ok (M.get_apply s) (.ite
    (fun _ => Keeps.leaves (keeps_bind
      (keeps_forFrom (fun _ => keeps_bind (keeps_loadCell P _ _) fun _ =>
        keeps_storeCell fun t _ ht => h.slot t _ _ ht) _ 0)
      fun _ => keeps_modify fun t ht => h.flag t _ ht) hs)
    fun _ => .pure hs)

/-- A sample through the pipeline (R220): `P` holds once the history is written and until the tracker runs, `Q` from
there on. -/
theorem sampleStep_leaves {P Q : State → Prop} (hP : WindowKeeps P) (hQ : EngineKeeps Q) (hPQ : ∀ t, P t → Q t)
    {s : State} {x : F32} (htrack : ∀ t, P t → Q (t.track x).1) (hs : Q s) (hwritten : P (s.historyWritten x)) :
    Leaves Q (sampleStep x) s (fun _ t => Q t) := by
  have hengine : ∀ t, P t → Leaves Q (engProcess x) t (fun _ u => Q u) := fun t ht =>
    hQ.engProcess (hPQ t ht) (htrack t ht)
  rcases historyWrite_cases x s with hwrite | ⟨_, hwrite⟩
  case inr => exact .of_error (M.bind_of_error hwrite) hs
  refine .bind_ok hwrite (.bind_ok (M.get_apply _) (.ite (fun _ => ?_) fun _ => hengine _ hwritten))
  refine .bind_ok (M.set_apply _ _) ?_
  have hpublish := (hP.publishWindow.leaves (hP.counters _ { (s.historyWritten x).pipe with hopCnt := 0 } hwritten)).imp
    hPQ fun _ _ ht => ht
  exact hpublish.bind fun _ t ht => hengine t ht

/-- A sample of a block (R224), when `P` is kept by every write. -/
theorem blockSample_leaves {P : State → Prop} (hP : WindowKeeps P) (hE : EngineKeeps P)
    (htrack : ∀ t x, P t → P (t.track x).1) (hhistory : ∀ t i x, P t → P (t.poke .hist i x))
    (hout : ∀ t i x, P t → P (t.poke .outBuf i x)) (i : Nat) : Keeps P (blockSample i) :=
  keeps_bind (keeps_loadCell P _ _) fun x =>
    keeps_bind (.of_leaves fun t ht => sampleStep_leaves hP hE (fun _ h => h) (fun u hu => htrack u x hu) ht
      (hP.counters _ _ (hhistory t _ x ht)))
    fun _ => keeps_storeCell fun t _ ht => hout t _ _ ht

end Sys2Proof.Machine
end

section
/-! SUPPORT. Frames of the voice, engine and pipeline commands (spec/44_voice_engine.md R190 to R197, 45_pipeline.md
R220 to R226). -/

namespace Sys2Proof.Machine

/-! ## The registers an update of the state writes -/

/-- A register among `js` of the bank of voice `v`. -/
def Reg.ofVoice (v : Nat) (js : List VoiceReg) (r : Reg) : Prop := ∃ j ∈ js, r = .voice v j

section
variable (s : State)

/-- A new bank is seen in the registers of that voice in which it differs. -/
theorem State.setVoice_registers (v : Nat) {x : Voice} {js : List VoiceReg}
    (h : ∀ j, j ∉ js → x.regWord j = (s.voice v).regWord j) :
    s.sameRegistersBut (s.setVoice v x) (Reg.ofVoice v js) := by
  intro r hr
  refine State.regWord_setVoices fun u j hru => ?_
  subst hru
  have hvoice := s.voice_setVoice v u x
  unfold State.setVoice at hvoice
  rw [hvoice]
  split
  next heq =>
    obtain ⟨rfl, -⟩ := heq
    exact h j fun hj => hr ⟨j, hj, rfl⟩
  next => rfl

theorem State.setEng_registers (rr : Word) : s.sameRegistersBut (s.setEng { s.eng with rr := rr }) (· = .engRr) := by
  intro r hr
  cases r with
  | engRr => exact absurd rfl hr
  | _ => rfl

theorem State.recordFault_registers (c : FaultCause) (i : Word) :
    s.sameRegistersBut (s.recordFault c i) (· ∈ [.fault, .faultInfo, .status]) := by
  intro r hr
  unfold State.recordFault
  split
  · cases r with
    | fault | faultInfo | status => simp at hr
    | _ => rfl
  · rfl

theorem State.setPipe_registers (x : Pipe) :
    s.sameRegistersBut (s.setPipe x) (· ∈ [.pipeHwr, .pipeHopCnt, .pipeFill]) := by
  intro r hr
  cases r with
  | pipeHwr | pipeHopCnt | pipeFill => simp at hr
  | _ => rfl

theorem State.setWmb_registers (x : Wmb) : s.sameRegistersBut (s.setWmb x) (· ∈ [.wdrop, .status]) := by
  intro r hr
  cases r with
  | wdrop | status => simp at hr
  | _ => rfl

/-- New polled values and a new flag, the mailbox left (45_pipeline.md R226). -/
theorem State.setCtrl_registers {x : Ctrl} (hmb : x.mb = s.ctrl.mb) :
    s.sameRegistersBut (s.setCtrl x) (· ∈ [.ctrlCur0, .ctrlCur1, .ctrlCur2, .ctrlCur3] ++ [.status]) := by
  intro r hr
  cases r with
  | ctrlCur0 | ctrlCur1 | ctrlCur2 | ctrlCur3 | status => simp at hr
  | ctrlMb0 | ctrlMb1 | ctrlMb2 | ctrlMb3 => simp only [State.regWord, State.setCtrl_ctrl, hmb]
  | _ => rfl

theorem Ctrl.polled_mb (x : Ctrl) : x.polled.mb = x.mb := by
  unfold Ctrl.polled
  split <;> rfl

/-- A rate is seen in three registers (44_voice_engine.md R190), whatever increment it gives. -/
theorem Voice.regWord_rate (x : Voice) (p : Word) (i : F32) {j : VoiceReg} (hj : j ∉ [.inc, .period, .flags]) :
    ({ x with period := p, inc := i, rateSet := true } : Voice).regWord j = x.regWord j := by
  cases j with
  | inc | period | flags => simp at hj
  | _ => rfl

theorem State.withRate_registers (v : Nat) (p : Word) :
    s.sameRegistersBut (s.setVoice v ((s.voice v).withRate p)) (Reg.ofVoice v [.inc, .period, .flags]) :=
  s.setVoice_registers v fun _ hj => (s.voice v).regWord_rate p (incOf p) hj

/-- A queued waveform is seen in its length and the flags (R192). -/
theorem State.withWave_registers (v : Nat) (len : Word) :
    s.sameRegistersBut (s.setVoice v ((s.voice v).withWave len)) (Reg.ofVoice v [.swapLen, .flags]) :=
  s.setVoice_registers v fun j hj => by
    cases j with
    | swapLen | flags => simp at hj
    | _ => rfl

theorem Voice.advance_keeps (x : Voice) : x.advance.period = x.period ∧ x.advance.swapLen = x.swapLen := by
  unfold Voice.advance
  simp only
  split
  · split <;> exact ⟨rfl, rfl⟩
  · exact ⟨rfl, rfl⟩

/-- An advance leaves the period and the queued length (R193). -/
theorem State.advance_registers (v : Nat) : s.sameRegistersBut (s.setVoice v (s.voice v).advance)
    (Reg.ofVoice v [.phase, .inc, .actLen, .flags]) :=
  s.setVoice_registers v fun j hj => by
    cases j with
    | phase | inc | actLen | flags => simp at hj
    | period => exact (s.voice v).advance_keeps.1
    | swapLen => exact (s.voice v).advance_keeps.2

end

/-! ## Frames that the writes of a unit stay in -/

theorem Reg.writtenByEngine_of_tracker {lpfEn : Bool} {r : Reg} (h : r.writtenByTracker lpfEn) : r.writtenByEngine := by
  cases r with
  | env0Value | env1Value | cdGates | cdCount | cdLength | zdPrev | ctWr | ctLastZc | ctCycStart | ctCycEnd | ctCycLen
  | lpfValue | lpfPrev | fault | faultInfo | status | engRr | voice => trivial
  | _ => simp [Reg.writtenByTracker] at h

namespace State.Within
variable {s t u : State} {m : Space → Nat → Prop} {q p : Reg → Prop}

/-- A further update of registers that may differ anyway. -/
theorem update (h : s.Within t m q) (hmem : u.mem = t.mem) (hreg : t.sameRegistersBut u p) (hpq : ∀ r, p r → q r) :
    s.Within u m q :=
  ⟨fun sp i hi => (State.sameMemoryBut_of_mem m hmem sp i hi).trans (h.cells sp i hi), h.registers.andThen hreg hpq⟩

/-- A further write of a cell that may differ anyway. -/
theorem poke (h : s.Within t m q) {sp : Space} {i : Nat} (hm : m sp i) (w : Word) : s.Within (t.poke sp i w) m q := by
  refine ⟨fun sp' j hj => ?_, fun r hr => (t.regWord_setMem _ r).trans (h.registers r hr)⟩
  have hne : sp' ≠ sp ∨ j ≠ i := by
    by_contra! heq
    obtain ⟨rfl, rfl⟩ := heq
    exact hj hm
  exact (t.peek_poke_ne w hne).trans (h.cells sp' j hj)

theorem recordFault (h : s.Within t m q) (c : FaultCause) (i : Word)
    (hq : ∀ r ∈ [Reg.fault, .faultInfo, .status], q r) : s.Within (t.recordFault c i) m q :=
  h.update (t.recordFault_mem c i) (t.recordFault_registers c i) hq

/-- A frame with every register the engine writes is kept by the engine. -/
theorem engineKeeps (hq : ∀ r, r.writtenByEngine → q r) : EngineKeeps (s.Within · m q) where
  rate t v p h := h.update rfl (t.withRate_registers v p) fun r hr => hq r (by obtain ⟨j, -, rfl⟩ := hr; trivial)
  advance t v h := h.update rfl (t.advance_registers v) fun r hr => hq r (by obtain ⟨j, -, rfl⟩ := hr; trivial)
  roundRobin t rr h := h.update rfl (t.setEng_registers rr) fun r hr => hq r (by rw [hr]; trivial)
  fault t c i h := h.recordFault c i fun r hr => hq r (by
    simp only [List.mem_cons, List.not_mem_nil, or_false] at hr
    rcases hr with rfl | rfl | rfl <;> trivial)

/-- So does the tracker, in a frame with the ring's cell that it writes. -/
theorem track (h : s.Within t m q) (hq : ∀ r, r.writtenByEngine → q r) (hm : m .ring t.ct.wr.toNat) (x : F32) :
    s.Within (t.track x).1 m q :=
  (h.poke hm x).update (t.track_mem x)
    (fun r hr => (t.track_registers x r hr).trans (t.regWord_setMem _ r).symm)
    fun r hr => hq r (Reg.writtenByEngine_of_tracker hr)

/-- A frame with the window slot and the pipeline's registers is kept by the pipeline. -/
theorem windowKeeps (hq : ∀ r ∈ [Reg.pipeHwr, .pipeHopCnt, .pipeFill] ++ [.wdrop, .status], q r) (hm : ∀ i, m .wmb i) :
    WindowKeeps (s.Within · m q) where
  counters t x h := h.update rfl (t.setPipe_registers x) fun r hr => hq r (List.mem_append_left _ hr)
  slot _ i w h := h.poke (hm i) w
  flag t x h := h.update rfl (t.setWmb_registers x) fun r hr =>
    hq r (List.mem_append_right _ hr)

end State.Within

/-! ## The commands -/

/-- The check of the voice number changes nothing, and what follows may use it (R191, R192, R194). -/
theorem requireVoice_leaves {β : Type} {P : State → Prop} {s : State} {v : Nat} {f : Unit → M β}
    {R : β → State → Prop} (hs : P s) (h : v < s.cfg.nv.toNat → Leaves P (f ()) s R) :
    Leaves P (requireVoice v >>= f) s R :=
  .congr (M.bind_congr_left (requireVoice_apply v s)) (.require hs fun hv => h (of_decide_eq_true hv))

/-- Queueing a waveform from any state (R192): cells of `VBUF`, then the registers of the voice. -/
theorem voiceSetWaveform_within (s : State) (v : Nat) (len : Word) :
    Leaves (s.Within · (fun sp _ => sp = .vbuf) (Reg.ofVoice v [.swapLen, .flags]))
      (voiceSetWaveform v len) s
      (fun _ u => s.Within u (fun sp _ => sp = .vbuf) (Reg.ofVoice v [.swapLen, .flags])) := by
  have hself := State.Within.refl s (fun sp _ => sp = .vbuf) (Reg.ofVoice v [.swapLen, .flags])
  rcases voiceAt_cases v s with ⟨-, hx⟩ | ⟨-, hx⟩
  case inr => exact .of_error (M.bind_of_error hx) hself
  refine .bind_ok hx ?_
  have hloop : Keeps
      (fun t => t = s.setMem t.mem ∧ s.Within t (fun sp _ => sp = .vbuf) (Reg.ofVoice v [.swapLen, .flags]))
      (forFrom len.toNat 0 (fun i => do
        let w ← loadCell .wstage i
        let t ← get
        storeCell .vbuf (vbufIndex t.cfg.wt.toNat v (!(s.voice v).act) i) w)) :=
    keeps_forFrom (fun i => keeps_bind (keeps_loadCell _ _ _) fun w => keeps_bind (keeps_get _) fun t =>
      keeps_storeCell fun u _ hu => ⟨by rw [hu.1]; rfl, hu.2.poke rfl w⟩) _ 0
  refine .bind ((hloop.leaves ⟨rfl, hself⟩).imp (fun _ ht => ht.2) fun _ _ ht => ht) fun _ t ⟨hmem, ht⟩ => ?_
  rcases putVoice_cases v ((s.voice v).withWave len) t with ⟨-, hput⟩ | ⟨-, hput⟩
  · have hvoice : s.voice v = t.voice v := by rw [hmem]; rfl
    refine .of_ok hput (ht.update rfl ?_ fun _ hr => hr)
    rw [hvoice]
    exact t.withWave_registers v len
  · exact .of_error hput ht

section
variable {s t : State}

theorem exec_vSetRate_within {v : Nat} {p : Word} (h : exec (.vSetRate v p) s = .next t) :
    s.Within t (fun _ _ => False) (Reg.ofVoice v [.inc, .period, .flags]) := by
  have hself := State.Within.refl s (fun _ _ => False) (Reg.ofVoice v [.inc, .period, .flags])
  refine workCommand_within h fun _ => requireVoice_leaves hself fun _ => .require hself fun _ => ?_
  rcases voiceSetRate_cases v p s with ⟨-, hset⟩ | ⟨_, hset⟩
  · exact .bind_ok hset (.pure (hself.update rfl (s.withRate_registers v p) fun _ hr => hr))
  · exact .of_error (M.bind_of_error hset) hself

theorem exec_vSetWave_within {v : Nat} {len : Word} (h : exec (.vSetWave v len) s = .next t) :
    s.Within t (fun sp _ => sp = .vbuf) (Reg.ofVoice v [.swapLen, .flags]) :=
  workCommand_within h fun _ => requireVoice_leaves (.refl s _ _) fun _ => .bind_ok (M.get_apply s)
    (.require (.refl s _ _) fun _ => (voiceSetWaveform_within s v len).bind fun _ _ hu => .pure hu)

theorem exec_vNext_within {v : Nat} (h : exec (.vNext v) s = .next t) :
    s.Within t (fun _ _ => False) (fun r => r.ofVoice v [.phase, .inc, .actLen, .flags]
      ∨ r ∈ [.fault, .faultInfo, .status]) := by
  refine workCommand_within h fun _ => requireVoice_leaves (.refl s _ _) fun _ => ?_
  rcases voiceNext_cases v s with ⟨_, hnext⟩ | ⟨c, i, hnext⟩ | ⟨_, hnext⟩
  · exact .bind_ok hnext (.pure ((State.Within.refl s _ _).update rfl (s.advance_registers v) fun _ hr => .inl hr))
  · exact .of_error (M.bind_of_error hnext) ((State.Within.refl s _ _).recordFault c i fun _ hr => .inr hr)
  · exact .of_error (M.bind_of_error hnext) (.refl s _ _)

theorem exec_engProc_within {x : F32} (h : exec (.engProc x) s = .next t) :
    s.Within t (fun sp i => sp = .ring ∧ i = s.ct.wr.toNat) Reg.writtenByEngine :=
  workCommand_within h fun _ =>
    ((State.Within.engineKeeps fun _ hr => hr).engProcess (.refl s _ _)
      ((State.Within.refl s _ _).track (fun _ hr => hr) ⟨rfl, rfl⟩ x)).bind fun _ _ hu => .pure hu

/-- The registers that a sample through the pipeline may write (45_pipeline.md R220). -/
def Reg.writtenBySample (r : Reg) : Prop := r.writtenByEngine ∨ r ∈ [.pipeHwr, .pipeHopCnt, .pipeFill, .wdrop]

theorem Reg.writtenBySample_of_window {r : Reg} (h : r ∈ [Reg.pipeHwr, .pipeHopCnt, .pipeFill] ++ [.wdrop, .status]) :
    r.writtenBySample := by
  cases r with
  | pipeHwr | pipeHopCnt | pipeFill | wdrop => exact .inr (by decide)
  | status => exact .inl trivial
  | _ => simp at h

/-- The tracker's index does not move before the tracker runs, so one cell of the ring is written. -/
theorem exec_pipeSmp_within {x : F32} (h : exec (.pipeSmp x) s = .next t) :
    s.Within t (fun sp i => (sp = .ring ∧ i = s.ct.wr.toNat) ∨ (sp = .hist ∧ i = s.pipe.hwr.toNat) ∨ sp = .wmb)
      Reg.writtenBySample := by
  refine workCommand_within h fun _ => Leaves.bind ?_ fun _ _ hu => .pure hu
  have hwindow := State.Within.windowKeeps (s := s) (q := Reg.writtenBySample)
    (m := fun sp i => (sp = .ring ∧ i = s.ct.wr.toNat) ∨ (sp = .hist ∧ i = s.pipe.hwr.toNat) ∨ sp = .wmb)
    (fun _ hr => Reg.writtenBySample_of_window hr) fun _ => .inr (.inr rfl)
  refine sampleStep_leaves (P := fun u => s.Within u _ Reg.writtenBySample ∧ u.ct = s.ct)
    { counters := fun u y hu => ⟨hwindow.counters u y hu.1, hu.2⟩
      slot := fun u i w hu => ⟨hwindow.slot u i w hu.1, hu.2⟩
      flag := fun u y hu => ⟨hwindow.flag u y hu.1, hu.2⟩ }
    (State.Within.engineKeeps fun _ hr => .inl hr) (fun _ hu => hu.1) (fun u hu => ?_) (.refl s _ _) ⟨?_, rfl⟩
  · exact hu.1.track (fun _ hr => .inl hr) (.inl ⟨rfl, by rw [hu.2]⟩) x
  · exact hwindow.counters _ _ ((State.Within.refl s _ _).poke (.inr (.inl ⟨rfl, rfl⟩)) x)

/-- The registers that a block may write (R224): a poll of the control values comes first. -/
def Reg.writtenByBlock (r : Reg) : Prop := r.writtenBySample ∨ r ∈ [.ctrlCur0, .ctrlCur1, .ctrlCur2, .ctrlCur3]

theorem exec_pipeBlk_within (h : exec .pipeBlk s = .next t) :
    s.Within t (fun sp _ => sp ∈ [.ring, .hist, .wmb, .outBuf]) Reg.writtenByBlock := by
  refine workCommand_within h fun _ => ?_
  have hengine : ∀ r : Reg, r.writtenByEngine → r.writtenByBlock := fun _ hr => .inl (.inl hr)
  have hblock := fun i => blockSample_leaves
    (State.Within.windowKeeps (s := s) (m := fun sp _ => sp ∈ [Space.ring, .hist, .wmb, .outBuf])
      (fun _ hr => .inl (Reg.writtenBySample_of_window hr)) (by simp))
    (State.Within.engineKeeps hengine) (fun _ x hu => hu.track hengine (by simp) x)
    (fun _ _ x hu => hu.poke (by simp) x) (fun _ _ x hu => hu.poke (by simp) x) i
  refine .bind_ok (M.modify_apply _ s) (.bind_ok (M.get_apply _)
    (Keeps.leaves (keeps_bind (keeps_forFrom hblock _ 0) fun _ => keeps_pure _ _) ?_))
  refine (State.Within.refl s _ _).update rfl (s.setCtrl_registers s.ctrl.polled_mb) fun r hr => ?_
  rcases List.mem_append.1 hr with hcur | hstatus
  · exact .inr hcur
  · rw [List.mem_singleton.1 hstatus]
    exact hengine _ trivial

end

end Sys2Proof.Machine

open Sys2Proof Sys2Proof.Machine

/-- Settles O52: each command stays within its frame. -/
theorem playbackFrame : Obligations.PlaybackFrame := by
  intro s t v w x
  refine ⟨fun h => ?_, fun h => ?_, fun h => ?_, fun h => ?_, fun h => ?_, fun h => ?_⟩
  · have hw := exec_vSetRate_within h
    exact ⟨hw.sameMemory, hw.registers.mono fun r hr => by simpa [Reg.ofVoice] using hr⟩
  · have hw := exec_vSetWave_within h
    exact ⟨hw.cells, hw.registers.mono fun r hr => by simpa [Reg.ofVoice] using hr⟩
  · have hw := exec_vNext_within h
    exact ⟨hw.sameMemory, hw.registers.mono fun r hr => by simpa [Reg.ofVoice, or_assoc] using hr⟩
  · have hw := exec_engProc_within h
    exact ⟨hw.cells, hw.registers⟩
  · have hw := exec_pipeSmp_within h
    exact ⟨hw.cells, hw.registers⟩
  · have hw := exec_pipeBlk_within h
    refine ⟨hw.cells, hw.registers.mono fun r hr => ?_⟩
    simpa [Reg.writtenByBlock, Reg.writtenBySample, or_assoc] using hr
end

section
/-! SUPPORT. What playback can read of a voice, and that the turns change it at a commit alone (spec/44_voice_engine.md
R195 (a)). -/

namespace Sys2Proof.Machine

/-! ## A voice played on -/

/-- `y` is a bank that the voice of `x` can come to while no waveform is queued for it: its buffer is the same, or it
has committed the waveform that was queued (R193). -/
inductive Voice.PlaysOn (x y : Voice) : Prop
  | stays (act : y.act = x.act) (actLen : y.actLen = x.actLen) (swapLen : y.swapLen = x.swapLen)
      (pending : y.pending = x.pending)
  | commits (act : y.act = !x.act) (actLen : y.actLen = x.swapLen) (queued : x.pending = true)
      (pending : y.pending = false)

namespace Voice.PlaysOn
variable {x y z : Voice}

theorem refl (x : Voice) : x.PlaysOn x := .stays rfl rfl rfl rfl

/-- A second commit has no waveform to take. -/
theorem trans (h : x.PlaysOn y) (h' : y.PlaysOn z) : x.PlaysOn z := by
  cases h with
  | stays act actLen swapLen pending =>
    cases h' with
    | stays act' actLen' swapLen' pending' =>
      exact .stays (act'.trans act) (actLen'.trans actLen) (swapLen'.trans swapLen) (pending'.trans pending)
    | commits act' actLen' queued pending' =>
      exact .commits (by rw [act', act]) (actLen'.trans swapLen) (pending.symm.trans queued) pending'
  | commits act actLen queued pending =>
    cases h' with
    | stays act' actLen' swapLen' pending' =>
      exact .commits (act'.trans act) (actLen'.trans actLen) queued (pending'.trans pending)
    | commits act' actLen' queued' pending' => exact absurd (pending.symm.trans queued') (by decide)

theorem rate (x : Voice) (p : Word) (i : F32) : x.PlaysOn { x with period := p, inc := i, rateSet := true } :=
  .stays rfl rfl rfl rfl

theorem phase (x : Voice) (p : F32) : x.PlaysOn { x with phase := p } := .stays rfl rfl rfl rfl

theorem swap (hp : x.pending = true) (i : F32) :
    x.PlaysOn { x with actLen := x.swapLen, inc := i, act := !x.act, pending := false } := .commits rfl rfl hp rfl

theorem commit (hp : x.pending = true) : x.PlaysOn x.commit := swap hp (incOf x.period)

/-- The advance commits at a wrap with a waveform queued, and else leaves the buffer (R193). -/
theorem advance (x : Voice) : x.PlaysOn x.advance := by
  unfold Voice.advance
  simp only
  split
  · split
    case isTrue hp => exact (phase x _).trans (commit hp)
    case isFalse => exact phase x _
  · exact phase x _

end Voice.PlaysOn

/-- `t` is a state that the voices of `s` can have come to while nothing is queued: each has played on, and no cell of a
wavetable is written. -/
structure State.PlaysOn (s t : State) : Prop where
  voices : ∀ v, (s.voice v).PlaysOn (t.voice v)
  cells : ∀ i, t.peek .vbuf i = s.peek .vbuf i

namespace State.PlaysOn
variable {s t u : State}

theorem refl (s : State) : s.PlaysOn s := ⟨fun v => .refl (s.voice v), fun _ => rfl⟩

theorem trans (h : s.PlaysOn t) (h' : t.PlaysOn u) : s.PlaysOn u :=
  ⟨fun v => (h.voices v).trans (h'.voices v), fun i => (h'.cells i).trans (h.cells i)⟩

/-- An update of neither the voices nor the memory. -/
theorem update (h : s.PlaysOn t) (hvoices : u.voices = t.voices) (hmem : u.mem = t.mem) : s.PlaysOn u := by
  refine ⟨fun v => ?_, fun i => ?_⟩
  · have hvoice : u.voice v = t.voice v := by rw [State.voice, hvoices, State.voice]
    rw [hvoice]
    exact h.voices v
  · rw [State.peek, hmem]
    exact h.cells i

theorem poke (h : s.PlaysOn t) {sp : Space} (hsp : sp ≠ .vbuf) (i : Nat) (w : Word) : s.PlaysOn (t.poke sp i w) :=
  ⟨h.voices, fun j => (t.peek_poke_ne w (.inl hsp.symm)).trans (h.cells j)⟩

theorem setVoice (h : s.PlaysOn t) (v : Nat) {x : Voice} (hx : (t.voice v).PlaysOn x) : s.PlaysOn (t.setVoice v x) := by
  refine ⟨fun u => ?_, h.cells⟩
  rw [State.voice_setVoice]
  split
  next heq =>
    obtain ⟨rfl, -⟩ := heq
    exact (h.voices v).trans hx
  next => exact h.voices u

theorem recordFault (h : s.PlaysOn t) (c : FaultCause) (i : Word) : s.PlaysOn (t.recordFault c i) :=
  h.update (t.recordFault_voices c i) (t.recordFault_mem c i)

theorem track (h : s.PlaysOn t) (x : F32) : s.PlaysOn (t.track x).1 :=
  (h.poke (by decide) t.ct.wr.toNat x).update (t.track_voices x) (t.track_mem x)

theorem engineKeeps (s : State) : EngineKeeps s.PlaysOn where
  rate t v p h := h.setVoice v (.rate (t.voice v) p (incOf p))
  advance t v h := h.setVoice v (.advance (t.voice v))
  roundRobin _ _ h := h.update rfl rfl
  fault _ c i h := h.recordFault c i

theorem windowKeeps (s : State) : WindowKeeps s.PlaysOn where
  counters _ _ h := h.update rfl rfl
  slot _ i w h := h.poke (by decide) i w
  flag _ _ h := h.update rfl rfl

/-- A copy in the work buffer of the analyzer. -/
theorem workOnly (h : s.PlaysOn t) (htu : WorkOnly t u) : s.PlaysOn u := by
  refine ⟨fun v => ?_, fun i => (htu.peek (by decide) (by decide) i).trans (h.cells i)⟩
  rw [htu.memOnly.1]
  exact h.voices v

end State.PlaysOn

/-! ## Units -/

/-- The analysis writes the analyzer's registers, its work buffer and its phases (43_analyzer.md R167). -/
theorem anRun_playsOn {s : State} (hinv : Inv s) (hr : s.running = true) :
    Leaves s.PlaysOn anRun s (fun _ t => s.PlaysOn t) := by
  obtain ⟨b, hb⟩ := window_of_valid (hinv.running hr).valid
  obtain ⟨t, ht, hst, -⟩ := anWindow_apply hr hinv.memWf
  obtain ⟨u, hu, htu, -⟩ := anFft_apply (hst.running hr) hst.wf (by rw [hst.win, hb])
  have hsu := hst.trans htu
  obtain ⟨k, hk, -⟩ := peakSearch_peakBin (hsu.running hr) (by rw [hsu.win]; exact two_le_win hinv hr)
  obtain ⟨m, hmeasure, -, hcells⟩ := anMeasure_of_peakBin hinv hr hsu hk
  have hanalysed : s.PlaysOn (s.analysed m k) :=
    ⟨fun v => .refl _, fun i => (hcells .vbuf i (fun hsp => nomatch hsp)).trans (hsu.peek (by decide) (by decide) i)⟩
  refine .bind_ok ht (.bind_ok hu (.congr (y := anRefine _ _) hmeasure ?_))
  cases href : refined (s.analysed m k).cfg ⟨k, s.peek .anPhase k, u.binPhase k⟩ (coarseEstimate s.cfg k) with
  | some f => exact .of_ok (anRefine_of_some href) hanalysed
  | none => exact .of_error (anRefine_of_none href) (hanalysed.recordFault _ _)

theorem anLoad_playsOn {s : State} (hinv : Inv s) (hr : s.running = true) :
    Leaves s.PlaysOn anLoad s (fun _ t => s.PlaysOn t) := by
  obtain ⟨u, hu, hsu⟩ := anLoad_workOnly hr hinv.memWf
  exact .of_ok hu ((State.PlaysOn.refl s).workOnly hsu)

/-- The analysis of the window in the slot (43_analyzer.md R160, R168). -/
theorem anLoad_anRun_playsOn {s : State} (hinv : Inv s) (hr : s.running = true) :
    Leaves s.PlaysOn (do anLoad; anRun) s (fun _ t => s.PlaysOn t) := by
  obtain ⟨u, hu, hsu⟩ := anLoad_workOnly hr hinv.memWf
  have hon := (State.PlaysOn.refl s).workOnly hsu
  have hsound : Sound s.cfg u := (anLoad_keeps s (.of_inv hinv rfl hr)).1 () u hu
  exact .bind_ok hu
    ((anRun_playsOn hsound.inv hsound.running).imp (fun _ ht => hon.trans ht) fun _ _ ht => hon.trans ht)

theorem sampleStep_playsOn (s : State) (x : F32) : Keeps s.PlaysOn (sampleStep x) :=
  .of_leaves fun _ ht => sampleStep_leaves (State.PlaysOn.windowKeeps s) (State.PlaysOn.engineKeeps s) (fun _ h => h)
    (fun _ hu => hu.track x) ht ((ht.poke (sp := .hist) (by decide) _ x).update rfl rfl)

theorem blockSample_playsOn (s : State) (i : Nat) : Keeps s.PlaysOn (blockSample i) :=
  blockSample_leaves (State.PlaysOn.windowKeeps s) (State.PlaysOn.engineKeeps s) (fun _ x hu => hu.track x)
    (fun _ j x hu => hu.poke (by decide) j x) (fun _ j x hu => hu.poke (by decide) j x) i

/-! ## Commands and turns -/

/-- A command keeps what its own pseudocode keeps from the states that admission lets through, and a response keeps. -/
theorem command_leaves {lock : Bool} {need : RunNeed} {body : M (List Word)} {s t : State} {P : State → Prop}
    (hs : P s) (hresp : ∀ u st rs, P u → P (u.respond st rs))
    (hbody : need.met s.running = true → Leaves P body s (fun _ u => P u)) (h : command lock need body s = .next t) :
    P t := by
  have hleaves : Leaves P (do admission lock need; body) s (fun _ u => P u) := by
    rcases admit_cases lock need s with ⟨-, ha⟩ | ⟨-, -, ha⟩ | ⟨-, hmet, ha⟩
    · exact .of_error (M.bind_of_error ha) hs
    · exact .of_error (M.bind_of_error ha) hs
    · exact .bind_ok ha (hbody hmet)
  rcases outcomeOf_cases (do admission lock need; body) s with
    ⟨_, u, hu, ho⟩ | ⟨u, hu, ho⟩ | ⟨_, _, -, ho⟩ | ⟨_, _, -, ho⟩
  all_goals
    rw [command, ho] at h
    cases h
  case inl => exact hresp _ _ _ (hleaves.post hu)
  case inr.inl => exact hresp _ _ _ (hleaves.stop hu)
  case inr.inr.inl => exact hresp _ _ _ hs

section
variable {lock : Bool} {need : RunNeed} {body : M (List Word)} {s t : State}

theorem command_playsOn (h : command lock need body s = .next t)
    (hbody : need.met s.running = true → Leaves s.PlaysOn body s (fun _ u => s.PlaysOn u)) : s.PlaysOn t :=
  command_leaves (.refl s) (fun _ _ _ hu => hu.update rfl rfl) hbody h

theorem keeps_playsOn (h : command lock need body s = .next t) (hbody : Keeps s.PlaysOn body) : s.PlaysOn t :=
  command_playsOn h fun _ => hbody.leaves (.refl s)

end

@[simp] theorem State.putReg_voices (s : State) (r : Reg) (w : Word) : (s.putReg r w).voices = s.voices := by
  cases r <;> rfl

@[simp] theorem State.setEnv_voices (s : State) (u : Nat) (x : Env) : (s.setEnv u x).voices = s.voices := by
  unfold State.setEnv
  split <;> rfl

/-- A command is one that queues a waveform, or every voice plays on through it. -/
theorem exec_playsOn {i : Instr} {s t : State} (hinv : Inv s) (hr : s.running = true)
    (hi : ∀ v len, i ≠ .vSetWave v len) (h : exec i s = .next t) : s.PlaysOn t := by
  have hengine := State.PlaysOn.engineKeeps s
  cases i with
  | nop => exact keeps_playsOn (lock := true) (need := .either) (body := pure []) h (keeps_pure _ _)
  | init => exact command_playsOn (need := .stopped) h fun hmet => absurd hmet (by rw [hr]; decide)
  | rdreg reg =>
    exact keeps_playsOn h (keeps_bind (keeps_regOperand _ reg) fun _ => keeps_bind (keeps_get _) fun _ =>
      keeps_pure _ _)
  | wrreg reg data =>
    refine keeps_playsOn h (keeps_bind (keeps_regOperand _ reg) fun r => .of_leaves fun u hu => ?_)
    refine .bind_ok (M.get_apply u) (.require hu fun _ => .require hu fun _ => .require hu fun _ => ?_)
    exact .bind_ok (M.set_apply _ _) (.pure (hu.update (u.putReg_voices r data) (u.putReg_mem r data)))
  | rdmem space index =>
    exact keeps_playsOn h (keeps_bind (keeps_cellOperand _ _ _) fun _ => keeps_bind (keeps_loadCell _ _ _) fun _ =>
      keeps_pure _ _)
  | wrmem space index data =>
    refine keeps_playsOn h (keeps_bind (keeps_cellOperand _ _ _) fun cell => .of_leaves fun u hu => ?_)
    refine .bind_ok (M.get_apply u) (.require hu fun hw => Keeps.leaves (keeps_bind (keeps_storeCell fun _ _ ht =>
      ht.poke ?_ _ data) fun _ => keeps_pure _ _) hu)
    intro heq
    rw [heq] at hw
    cases hw
  | envProc inst x =>
    exact keeps_playsOn h (.of_leaves fun u hu => .require hu fun _ => .bind_ok (envProcess_apply inst x u)
      (.pure (hu.update (u.setEnv_voices inst _) (u.setEnv_mem inst _))))
  | lpfProc x =>
    exact keeps_playsOn h (.of_leaves fun u hu => .bind_ok (lpfProcess_apply x u) (.pure (hu.update rfl rfl)))
  | zdProc x =>
    exact keeps_playsOn h (.of_leaves fun u hu => .bind_ok (zdProcess_apply x u) (.pure (hu.update rfl rfl)))
  | cdProc x =>
    exact keeps_playsOn h (.of_leaves fun u hu => .bind_ok (cdProcess_apply x u)
      (.pure (hu.update (u.detect_voices x) (u.detect_mem x))))
  | ctProc x =>
    refine keeps_playsOn h (.of_leaves fun u hu => ?_)
    rcases ctProcess_cases x u with hct | ⟨_, hct⟩
    · exact .bind_ok hct (.pure (hu.track x))
    · exact .of_error (M.bind_of_error hct) hu
  | anProc len =>
    refine command_playsOn h fun _ => .bind_ok (M.get_apply s) (.require (.refl s) fun _ => ?_)
    refine .ite (fun _ => ?_) fun _ => ?_
    · exact .of_error (M.bind_of_error rfl) ((State.PlaysOn.refl s).recordFault .windowLength len)
    · have hrun : Leaves s.PlaysOn ((do anLoad; anRun) >>= fun f => pure [f]) s (fun _ u => s.PlaysOn u) :=
        (anLoad_anRun_playsOn hinv hr).bind fun _ _ hu => .pure hu
      rwa [bind_assoc] at hrun
  | vSetRate v p =>
    exact keeps_playsOn h (keeps_bind (keeps_requireVoice _ v) fun _ => keeps_bind (keeps_require _ _ _) fun _ =>
      keeps_bind (hengine.voiceSetRate v p) fun _ => keeps_pure _ _)
  | vSetWave v len => exact absurd rfl (hi v len)
  | vNext v =>
    exact keeps_playsOn h (keeps_bind (keeps_requireVoice _ v) fun _ => keeps_bind (hengine.voiceNext v) fun _ =>
      keeps_pure _ _)
  | engProc x =>
    exact command_playsOn h fun _ => (hengine.engProcess (.refl s) ((State.PlaysOn.refl s).track x)).bind
      fun _ _ hu => .pure hu
  | pipeSmp x => exact keeps_playsOn h (keeps_bind (sampleStep_playsOn s x) fun _ => keeps_pure _ _)
  | pipeBlk =>
    exact keeps_playsOn h (keeps_bind (keeps_modify fun _ hu => hu.update rfl rfl) fun _ => keeps_bind (keeps_get _)
      fun _ => keeps_bind (keeps_forFrom (blockSample_playsOn s) _ 0) fun _ => keeps_pure _ _)
  | ctick c0 c1 c2 c3 =>
    exact keeps_playsOn h (keeps_bind (keeps_modify fun _ hu => hu.update rfl rfl) fun _ => keeps_pure _ _)
  | fpoll =>
    refine keeps_playsOn h (.of_leaves fun u hu => .bind_ok (M.get_apply u) (.ite (fun _ => ?_) fun _ => .pure hu))
    exact .bind_ok (M.set_apply _ _) (.pure (hu.update rfl rfl))

theorem agentOutcome_playsOn {body : M Unit} {s t : State} (hbody : Leaves s.PlaysOn body s (fun _ u => s.PlaysOn u))
    (h : agentOutcome body s = .next t) : s.PlaysOn t := by
  unfold agentOutcome at h
  cases hb : body s with
  | ok a u => rw [hb] at h; cases h; exact hbody.post hb
  | error e u =>
    rw [hb] at h
    cases e with
    | raised => cases h; exact hbody.stop hb
    | refused st => cases h; exact .refl s
    | fault f => cases h

/-- The steps of the analyzer agent (45_pipeline.md R229, R230). -/
theorem analyzerTurn_playsOn {s t : State} (hinv : Inv s) (hr : s.running = true) (h : analyzerTurn s = .next t) :
    s.PlaysOn t := by
  unfold analyzerTurn at h
  split at h
  · refine agentOutcome_playsOn ((anRun_playsOn hinv hr).bind fun f u hu => .of_ok (M.modify_apply _ u) ?_) h
    unfold State.published
    split
    · exact hu.update rfl rfl
    · exact hu.update rfl rfl
  · split at h
    · exact agentOutcome_playsOn ((anLoad_playsOn hinv hr).bind fun _ u hu =>
        .of_ok (M.modify_apply _ u) (hu.update rfl rfl)) h
    · cases h
      exact .refl s

/-! ## What playback can read -/

/-- A step leaves what playback of voice `v` can read, or commits the waveform that was queued (R195 (a)). -/
structure State.KeepsWaveform (s t : State) (v : Nat) : Prop where
  buffer : (t.voice v).act = (s.voice v).act ∧ (t.voice v).actLen = (s.voice v).actLen
    ∨ (t.voice v).act = !(s.voice v).act ∧ (t.voice v).actLen = (s.voice v).swapLen
        ∧ (s.voice v).pending = true ∧ (t.voice v).pending = false
  cells : ∀ i, i < (t.voice v).actLen.toNat →
    t.peek .vbuf (vbufIndex s.cfg.wt.toNat v (t.voice v).act i)
      = s.peek .vbuf (vbufIndex s.cfg.wt.toNat v (t.voice v).act i)

theorem State.PlaysOn.keepsWaveform {s t : State} (h : s.PlaysOn t) (v : Nat) : s.KeepsWaveform t v := by
  refine ⟨?_, fun i _ => h.cells _⟩
  cases h.voices v with
  | stays act actLen _ _ => exact .inl ⟨act, actLen⟩
  | commits act actLen queued pending => exact .inr ⟨act, actLen, queued, pending⟩

/-- Equal cells of `VBUF` lie in the same buffer (20_memory.md R61). -/
theorem vbufIndex_row {wt v u i j : Nat} {p q : Bool} (hi : i < wt) (hj : j < wt)
    (h : vbufIndex wt v p i = vbufIndex wt u q j) : 2 * v + p.toNat = 2 * u + q.toNat := by
  have hrow : ∀ {a k : Nat}, k < wt → (a * wt + k) / wt = a := fun {a k} hk => by
    rw [Nat.add_comm, Nat.add_mul_div_right _ _ (by omega), Nat.div_eq_of_lt hk, Nat.zero_add]
  calc 2 * v + p.toNat = vbufIndex wt v p i / wt := (hrow hi).symm
    _ = vbufIndex wt u q j / wt := by rw [h]
    _ = 2 * u + q.toNat := hrow hj

/-- Queueing a waveform writes a buffer that is not played, of whichever voice (R192). -/
theorem State.Queued.keepsWaveform {s t : State} {u v : Nat} {len : Word} (h : s.Queued u len t)
    (hlen : len.toNat ≤ s.cfg.wt.toNat) (hact : (s.voice v).actLen.toNat ≤ s.cfg.wt.toNat) : s.KeepsWaveform t v := by
  have hvoice : (t.voice v).act = (s.voice v).act ∧ (t.voice v).actLen = (s.voice v).actLen := by
    rw [h.registers, State.voice_setVoice]
    split
    next heq =>
      obtain ⟨rfl, -⟩ := heq
      exact ⟨rfl, rfl⟩
    next => exact ⟨rfl, rfl⟩
  refine ⟨.inl hvoice, fun i hi => h.cells _ _ ?_⟩
  rintro ⟨-, hfrom, hto⟩
  rw [hvoice.1] at hfrom hto
  rw [hvoice.2] at hi
  obtain ⟨j, hj⟩ := Nat.exists_eq_add_of_le hfrom
  rw [← s.vbufIndex_swap] at hj
  have hrow := vbufIndex_row (hi.trans_le hact) (by rw [s.vbufIndex_swap] at hj; omega) hj
  have hbit := (s.voice v).act.toNat_le
  have hbit' := (!(s.voice u).act).toNat_le
  obtain rfl : v = u := by omega
  have hother : (!(s.voice v).act).toNat ≠ (s.voice v).act.toNat := by cases (s.voice v).act <;> decide
  omega

theorem exec_vSetWave_keepsWaveform {s t : State} {u v : Nat} {len : Word} (hinv : Inv s) (hr : s.running = true)
    (hv : v < s.cfg.nv.toNat) (h : exec (.vSetWave u len) s = .next t) : s.KeepsWaveform t v := by
  have hself := (State.PlaysOn.refl s).keepsWaveform v
  refine command_leaves (P := (s.KeepsWaveform · v)) hself (fun w _ _ hw => ⟨hw.buffer, hw.cells⟩) (fun _ => ?_) h
  refine requireVoice_leaves hself fun hu => .bind_ok (M.get_apply s) (.require hself fun hlen => ?_)
  rw [Bool.and_eq_true, decide_eq_true_eq, decide_eq_true_eq] at hlen
  obtain ⟨w, hw, hqueued⟩ := voiceSetWaveform_apply hr hinv.memWf ((InBounds.of_inv hinv hr).hasVoice hu) hlen.2
  exact .bind_ok hw (.pure (hqueued.keepsWaveform hlen.2 ((hinv.running hr).voices v hv).actLen.2))

theorem exec_keepsWaveform {i : Instr} {s t : State} {v : Nat} (hinv : Inv s) (hr : s.running = true)
    (hv : v < s.cfg.nv.toNat) (h : exec i s = .next t) : s.KeepsWaveform t v := by
  by_cases hi : ∀ u len, i ≠ .vSetWave u len
  · exact (exec_playsOn hinv hr hi h).keepsWaveform v
  · push Not at hi
    obtain ⟨u, len, rfl⟩ := hi
    exact exec_vSetWave_keepsWaveform hinv hr hv h

theorem commandTurn_keepsWaveform {s t : State} {v : Nat} (hinv : Inv s) (hr : s.running = true)
    (hv : v < s.cfg.nv.toNat) (h : commandTurn s = .next t) : s.KeepsWaveform t v := by
  unfold commandTurn at h
  cases hdec : decode s.port with
  | command i rest =>
    rw [hdec] at h
    have hkept := exec_keepsWaveform (hinv.setPort rest) hr hv h
    exact ⟨hkept.buffer, hkept.cells⟩
  | illegal why rest =>
    rw [hdec] at h
    cases h
    exact ((State.PlaysOn.refl s).update (u := (s.setPort rest).respond .errIllegal []) rfl rfl).keepsWaveform v
  | incomplete =>
    rw [hdec] at h
    exact (analyzerTurn_playsOn hinv hr h).keepsWaveform v

end Sys2Proof.Machine

open Sys2Proof Sys2Proof.Machine

/-- Settles O45: a turn that is no reset queues a waveform in a buffer not played, or lets every voice play on. -/
theorem waveformChangesOnlyAtCommit : Obligations.WaveformChangesOnlyAtCommit := by
  intro s t v hinv hr hv hreset hstep
  have hkept : s.KeepsWaveform t v := by
    unfold step takeTurn at hstep
    cases hsched : s.sched with
    | nil => rw [hsched] at hstep; exact commandTurn_keepsWaveform hinv hr hv hstep
    | cons turn rest =>
      rw [hsched] at hstep
      cases turn with
      | command =>
        have hturn := commandTurn_keepsWaveform (hinv.setSched rest) hr hv hstep
        exact ⟨hturn.buffer, hturn.cells⟩
      | analyzer =>
        have hturn := (analyzerTurn_playsOn (hinv.setSched rest) hr hstep).keepsWaveform v
        exact ⟨hturn.buffer, hturn.cells⟩
      | reset => exact absurd (.inl (by rw [hsched]; rfl)) hreset
      | resetInCommand => exact absurd (.inr (by rw [hsched]; rfl)) hreset
  exact ⟨hkept.buffer, hkept.cells⟩
end

section
/-! SUPPORT. A logic for pseudocode that does not depend on what the analyzer agent writes
(spec/60_exceptions.md R262). -/

namespace Sys2Proof.Machine

variable {α β : Type}

/-! ## The audio part of a state -/

section
variable (s : State)

theorem State.audioPart_respond (st : Status) (rs : List Word) :
    (s.respond st rs).audioPart = s.audioPart.respond st rs := rfl

/-- A write of a cell is one of the audio part too, or is blanked there. -/
theorem State.audioPart_poke (sp : Space) (i : Nat) (w : Word) :
    (s.audioPart.poke sp i w).audioPart = (s.poke sp i w).audioPart := by cases sp <;> rfl

theorem State.audioPart_recordFault (c : FaultCause) (i : Word) :
    (s.audioPart.recordFault c i).audioPart = (s.recordFault c i).audioPart := by
  unfold State.recordFault
  rw [show s.audioPart.fault = s.fault from rfl]
  split <;> rfl

theorem State.audioPart_setEnv (u : Nat) (x : Env) :
    (s.audioPart.setEnv u x).audioPart = (s.setEnv u x).audioPart := by
  unfold State.setEnv
  split <;> rfl

theorem State.audioPart_putReg (r : Reg) (w : Word) :
    (s.audioPart.putReg r w).audioPart = (s.putReg r w).audioPart := by cases r <;> rfl

/-- The detector reads and writes the audio part alone (42_cycle.md R140). -/
theorem State.detect_audioPart (x : F32) : s.audioPart.detect x = ((s.detect x).1.audioPart, (s.detect x).2) := by
  unfold State.detect
  rw [show s.audioPart.ctl = s.ctl from rfl]
  cases s.ctl.lpfEn <;> rfl

end

/-- The spaces that the audio part keeps. -/
def Space.isAudio : Space → Bool
  | .ring | .hist | .wstage | .inBuf | .outBuf | .vbuf => true
  | .wmb | .anRe | .anIm | .anPhase | .anWin | .anTwr | .anTwi => false

theorem State.peek_audioPart {sp : Space} (h : sp.isAudio = true) (s : State) (i : Nat) :
    s.audioPart.peek sp i = s.peek sp i := by
  cases sp with
  | ring | hist | wstage | inBuf | outBuf | vbuf => rfl
  | wmb | anRe | anIm | anPhase | anWin | anTwr | anTwi => cases h

/-! ## Pseudocode that ends alike -/

/-- How pseudocode ends, with the state it leaves blanked out. -/
def audioEnd : EStateM.Result Stop State α → EStateM.Result Stop State α
  | .ok a t => .ok a t.audioPart
  | .error e t => .error e t.audioPart

/-- From states that differ only in what the analyzer agent writes, the pseudocode ends alike, in such states. -/
def IgnoresAnalyzer (x : M α) : Prop := ∀ s s', s.audioPart = s'.audioPart → audioEnd (x s) = audioEnd (x s')

namespace IgnoresAnalyzer
variable {x y : M α}

theorem ok (h : IgnoresAnalyzer x) {s s' u : State} {a : α} (hs : s.audioPart = s'.audioPart) (hx : x s = .ok a u) :
    ∃ u', x s' = .ok a u' ∧ u'.audioPart = u.audioPart := by
  have hend := h s s' hs
  rw [hx] at hend
  cases hx' : x s' with
  | ok a' u' =>
    rw [hx'] at hend
    simp only [audioEnd, EStateM.Result.ok.injEq] at hend
    exact ⟨u', by rw [hend.1], hend.2.symm⟩
  | error e' u' => rw [hx'] at hend; cases hend

theorem error (h : IgnoresAnalyzer x) {s s' u : State} {e : Stop} (hs : s.audioPart = s'.audioPart)
    (hx : x s = .error e u) : ∃ u', x s' = .error e u' ∧ u'.audioPart = u.audioPart := by
  have hend := h s s' hs
  rw [hx] at hend
  cases hx' : x s' with
  | ok a' u' => rw [hx'] at hend; cases hend
  | error e' u' =>
    rw [hx'] at hend
    simp only [audioEnd, EStateM.Result.error.injEq] at hend
    exact ⟨u', by rw [hend.1], hend.2.symm⟩

/-- It is enough to compare a state with its own audio part. -/
theorem of_audioPart (h : ∀ s, audioEnd (x s.audioPart) = audioEnd (x s)) : IgnoresAnalyzer x := fun s s' hs => by
  rw [← h s, hs, h s']

/-- Pseudocode that always ends normally. -/
theorem of_ok {g : State → α} {f : State → State} (hx : ∀ s, x s = .ok (g s) (f s))
    (hg : ∀ s, g s.audioPart = g s) (hf : ∀ s, (f s.audioPart).audioPart = (f s).audioPart) : IgnoresAnalyzer x :=
  of_audioPart fun s => by rw [hx, hx, audioEnd, audioEnd, hg, hf]

/-- Pseudocode that ends normally or stops where it is, by a check of the audio part. -/
theorem of_check {c : State → Prop} [DecidablePred c] {g : State → α} {f : State → State} {e : Stop}
    (hx : ∀ s, x s = if c s then .ok (g s) (f s) else .error e s) (hc : ∀ s, c s.audioPart ↔ c s)
    (hg : ∀ s, g s.audioPart = g s) (hf : ∀ s, (f s.audioPart).audioPart = (f s).audioPart) : IgnoresAnalyzer x := by
  refine of_audioPart fun s => ?_
  rw [hx, hx]
  by_cases h : c s
  · rw [if_pos h, if_pos ((hc s).2 h), audioEnd, audioEnd, hg, hf]
  · rw [if_neg h, if_neg (mt (hc s).1 h)]
    rfl

theorem pure (a : α) : IgnoresAnalyzer (Pure.pure a : M α) := fun _ _ hs => congrArg (EStateM.Result.ok a) hs

theorem refuse (st : Status) : IgnoresAnalyzer (refuse st : M α) := fun _ _ hs =>
  congrArg (EStateM.Result.error (Stop.refused st)) hs

theorem raise (c : FaultCause) (i : Word) : IgnoresAnalyzer (raiseFault c i : M α) :=
  of_audioPart fun s => congrArg (EStateM.Result.error Stop.raised) (s.audioPart_recordFault c i)

theorem bind {f : α → M β} (hx : IgnoresAnalyzer x) (hf : ∀ a, IgnoresAnalyzer (f a)) :
    IgnoresAnalyzer (x >>= f) := by
  intro s s' hs
  cases h : x s with
  | ok a u =>
    obtain ⟨u', h', hu⟩ := hx.ok hs h
    rw [M.bind_of_ok h, M.bind_of_ok h']
    exact hf a u u' hu.symm
  | error e u =>
    obtain ⟨u', h', hu⟩ := hx.error hs h
    rw [M.bind_of_error h, M.bind_of_error h', audioEnd, audioEnd, hu]

/-- After a read of the state, pseudocode that takes from it nothing of the analyzer's. -/
theorem get {f : State → M β} (hf : ∀ s, IgnoresAnalyzer (f s)) (hread : ∀ s, f s.audioPart = f s) :
    IgnoresAnalyzer ((MonadState.get : M State) >>= f) := by
  intro s s' hs
  have hsame : f s = f s' := by rw [← hread s, hs, hread s']
  rw [M.bind_of_ok (M.get_apply s), M.bind_of_ok (M.get_apply s'), hsame]
  exact hf s' s s' hs

theorem modify {f : State → State} (hf : ∀ s, (f s.audioPart).audioPart = (f s).audioPart) :
    IgnoresAnalyzer (modify f : M PUnit) := of_ok (fun _ => rfl) (fun _ => rfl) hf

theorem ite {c : Prop} [Decidable c] (hx : IgnoresAnalyzer x) (hy : IgnoresAnalyzer y) :
    IgnoresAnalyzer (if c then x else y) := by
  split
  · exact hx
  · exact hy

/-- A part done under a condition, then the rest. -/
theorem ifThen {c : Prop} [Decidable c] {x : M Unit} {f : Unit → M β} (hx : IgnoresAnalyzer x)
    (hf : IgnoresAnalyzer (f ())) : IgnoresAnalyzer (if c then x >>= f else f ()) :=
  ite (hx.bind fun _ => hf) hf

/-! ## Primitives and loops -/

theorem require (b : Bool) (st : Status) : IgnoresAnalyzer (require b st) := by
  cases b
  · exact refuse st
  · exact pure ()

theorem loadCell {sp : Space} (h : sp.isAudio = true) (i : Nat) : IgnoresAnalyzer (loadCell sp i) :=
  of_check (fun _ => rfl) (fun _ => Iff.rfl) (State.peek_audioPart h · i) fun _ => rfl

theorem storeCell (sp : Space) (i : Nat) (w : Word) : IgnoresAnalyzer (storeCell sp i w) :=
  of_check (fun _ => rfl) (fun _ => Iff.rfl) (fun _ => rfl) fun s => s.audioPart_poke sp i w

theorem voiceAt (v : Nat) : IgnoresAnalyzer (voiceAt v) :=
  of_check (fun _ => rfl) (fun _ => Iff.rfl) (fun _ => rfl) fun _ => rfl

theorem putVoice (v : Nat) (x : Voice) : IgnoresAnalyzer (putVoice v x) :=
  of_check (fun _ => rfl) (fun _ => Iff.rfl) (fun _ => rfl) fun _ => rfl

theorem forFrom {body : Nat → M Unit} (h : ∀ i, IgnoresAnalyzer (body i)) (n a : Nat) :
    IgnoresAnalyzer (forFrom n a body) := by
  induction n generalizing a with
  | zero => exact pure ()
  | succ n ih => exact (h a).bind fun _ => ih (a + 1)

end IgnoresAnalyzer

end Sys2Proof.Machine
end

section
/-! SUPPORT. The commands of the audio path do not depend on what the analyzer agent writes (spec/60_exceptions.md
R262; 45_pipeline.md R220). -/

namespace Sys2Proof.Machine

namespace IgnoresAnalyzer

/-! ## Filters and tracker (41_filters.md, 42_cycle.md) -/

theorem envProcess (u : Nat) (x : F32) : IgnoresAnalyzer (envProcess u x) :=
  of_ok (envProcess_apply u x) (fun _ => rfl) fun s => s.audioPart_setEnv u _

theorem lpfProcess (x : F32) : IgnoresAnalyzer (lpfProcess x) :=
  of_ok (lpfProcess_apply x) (fun _ => rfl) fun _ => rfl

theorem zdProcess (x : F32) : IgnoresAnalyzer (zdProcess x) :=
  of_ok (zdProcess_apply x) (fun _ => rfl) fun _ => rfl

theorem cdProcess (x : F32) : IgnoresAnalyzer (cdProcess x) :=
  of_ok (cdProcess_apply x) (fun s => by rw [s.detect_audioPart]) fun s => by
    rw [s.detect_audioPart]
    rfl

theorem ctProcess (x : F32) : IgnoresAnalyzer (ctProcess x) := by
  refine .get (fun s => (storeCell _ _ _).bind fun _ => .bind (.modify fun _ => rfl) fun _ => ?_) fun _ => rfl
  refine (zdProcess x).bind fun _ => .ifThen (.modify fun _ => rfl) ?_
  refine (cdProcess x).bind fun _ => .ifThen (.modify fun _ => rfl) ?_
  exact .get (fun _ => .pure _) fun _ => rfl

/-! ## Voices and engine (44_voice_engine.md) -/

theorem requireVoice (v : Nat) : IgnoresAnalyzer (requireVoice v) := .get (fun _ => require _ _) fun _ => rfl

theorem voiceSetRate (v : Nat) (p : Word) : IgnoresAnalyzer (voiceSetRate v p) :=
  (voiceAt v).bind fun _ => putVoice v _

theorem voiceSetWaveform (v : Nat) (len : Word) : IgnoresAnalyzer (voiceSetWaveform v len) := by
  refine (voiceAt v).bind fun x => (forFrom (fun i => ?_) _ 0).bind fun _ => putVoice v _
  exact (loadCell rfl i).bind fun w => .get (fun _ => storeCell _ _ w) fun _ => rfl

theorem voiceNext (v : Nat) : IgnoresAnalyzer (voiceNext v) := by
  refine (voiceAt v).bind fun x => .ifThen (.raise _ _) ?_
  cases floorU x.position x.actLen with
  | none => exact .raise _ _
  | some i0 =>
    refine .get (fun _ => (loadCell rfl _).bind fun _ => (loadCell rfl _).bind fun _ => ?_) fun _ => rfl
    exact (putVoice v _).bind fun _ => .pure _

theorem mixVoices (amp : F32) (n i : Nat) (acc : F32) : IgnoresAnalyzer (mixVoices amp n i acc) := by
  induction n generalizing i acc with
  | zero => exact .pure acc
  | succ n ih => exact (voiceNext i).bind fun _ => ih (i + 1) _

theorem assignPeriod (c : Cycle) : IgnoresAnalyzer (assignPeriod c) :=
  .ite (.get (fun _ => (voiceSetRate _ _).bind fun _ => .modify fun _ => rfl) fun _ => rfl) (.pure ())

theorem engProcess (x : F32) : IgnoresAnalyzer (engProcess x) :=
  (ctProcess x).bind fun c => (assignPeriod c).bind fun _ => .get (fun _ => mixVoices _ _ 0 _) fun _ => rfl

/-! ## Pipeline (45_pipeline.md) -/

theorem historyWrite (x : F32) : IgnoresAnalyzer (historyWrite x) :=
  .get (fun _ => (storeCell _ _ x).bind fun _ => .modify fun _ => rfl) fun _ => rfl

/-- What is published is blanked out, and whether it is depends on the audio part (R222). -/
theorem publishWindow : IgnoresAnalyzer publishWindow := by
  refine .get (fun _ => .ite (.bind (forFrom (fun i => ?_) _ 0) fun _ => ?_) (.pure ())) fun _ => rfl
  · exact (loadCell rfl _).bind fun w => storeCell _ i w
  · exact .modify fun _ => rfl

/-- The hop counter is one of the audio part (R220). -/
theorem sampleStep (x : F32) : IgnoresAnalyzer (sampleStep x) := by
  refine (historyWrite x).bind fun _ => of_audioPart fun s => ?_
  rw [M.bind_of_ok (M.get_apply _), M.bind_of_ok (M.get_apply _), M.ite_apply, M.ite_apply]
  refine (apply_ite audioEnd _ _ _).trans (.trans ?_ (apply_ite audioEnd _ _ _).symm)
  refine if_congr Iff.rfl ?_ (engProcess x _ _ rfl)
  exact (publishWindow.bind fun _ => engProcess x) _ _ rfl

theorem blockSample (i : Nat) : IgnoresAnalyzer (blockSample i) :=
  (loadCell rfl i).bind fun x => (sampleStep x).bind fun _ => storeCell _ i _

/-! ## Operands (40_system_access.md R106) -/

theorem regOperand (a : Nat) : IgnoresAnalyzer (regOperand a) := by
  unfold Machine.regOperand
  cases regOf a with
  | none => exact .refuse _
  | some r => exact .pure r

end IgnoresAnalyzer

/-! ## Commands (00_scope.md R14) -/

/-- A check gives way to two continuations that end alike. -/
theorem audioEnd_require {β : Type} {b : Bool} {st : Status} {f f' : Unit → M β} {s s' : State}
    (hs : s.audioPart = s'.audioPart) (h : audioEnd (f () s) = audioEnd (f' () s')) :
    audioEnd ((require b st >>= f) s) = audioEnd ((require b st >>= f') s') := by
  cases b
  · exact congrArg (EStateM.Result.error (Stop.refused st)) hs
  · exact h

/-- A command whose pseudocode ignores the analyzer answers alike, and a refusal leaves the state it was sent in. -/
theorem IgnoresAnalyzer.command {lock : Bool} {need : RunNeed} {body : M (List Word)} (hbody : IgnoresAnalyzer body)
    {s s' t : State} (hs : s.audioPart = s'.audioPart) (h : command lock need body s = .next t) :
    ∃ t', Machine.command lock need body s' = .next t' ∧ t'.audioPart = t.audioPart := by
  have hadmission : IgnoresAnalyzer (admission lock need) :=
    .get (fun _ => (IgnoresAnalyzer.require _ _).bind fun _ => .require _ _) fun _ => rfl
  have hall := hadmission.bind fun _ => hbody
  unfold Machine.command at h ⊢
  rcases outcomeOf_cases (do admission lock need; body) s with
    ⟨rs, u, hu, ho⟩ | ⟨u, hu, ho⟩ | ⟨st, u, hu, ho⟩ | ⟨f, u, hu, ho⟩
  all_goals
    rw [ho] at h
    cases h
  case inl =>
    obtain ⟨u', hu', heq⟩ := hall.ok hs hu
    refine ⟨u'.respond .ok rs, by unfold outcomeOf; rw [hu'], ?_⟩
    rw [State.audioPart_respond, heq, State.audioPart_respond]
  case inr.inl =>
    obtain ⟨u', hu', heq⟩ := hall.error hs hu
    refine ⟨u'.respond .fault [], by unfold outcomeOf; rw [hu'], ?_⟩
    rw [State.audioPart_respond, heq, State.audioPart_respond]
  case inr.inr.inl =>
    obtain ⟨u', hu', -⟩ := hall.error hs hu
    refine ⟨s'.respond st [], by unfold outcomeOf; rw [hu'], ?_⟩
    rw [State.audioPart_respond, ← hs, State.audioPart_respond]

/-- WRREG writes what it read back with one register changed, and every writable register is of the audio part (R106). -/
theorem storeRegister_ignoresAnalyzer (r : Reg) (data : Word) : IgnoresAnalyzer (do
    let s ← get
    require (r.access != .ro) .errAccess
    require (!(r.access == .rwLock && s.running)) .errAccess
    require (!(r == .ctl) || ctlReservedClear data) .errOperand
    set (s.putReg r data)
    pure ([] : List Word)) := by
  refine .of_audioPart fun s => ?_
  rw [M.bind_of_ok (M.get_apply _), M.bind_of_ok (M.get_apply _)]
  refine audioEnd_require rfl (audioEnd_require rfl (audioEnd_require rfl ?_))
  exact congrArg (EStateM.Result.ok []) (s.audioPart_putReg r data)

theorem exec_ignoresAnalyzer {i : Instr} (hi : onAudioPath i = true) {s s' t : State}
    (hs : s.audioPart = s'.audioPart) (h : exec i s = .next t) :
    ∃ t', exec i s' = .next t' ∧ t'.audioPart = t.audioPart := by
  cases i with
  | init | rdreg | rdmem | wrmem | anProc | fpoll => cases hi
  | nop => exact IgnoresAnalyzer.command (lock := true) (need := .either) (.pure []) hs h
  | wrreg reg data =>
    refine IgnoresAnalyzer.command ?_ hs h
    exact .bind (.regOperand reg) fun r => storeRegister_ignoresAnalyzer r data
  | envProc inst x =>
    refine IgnoresAnalyzer.command ?_ hs h
    exact .bind (.require _ _) fun _ => .bind (.envProcess inst x) fun _ => .pure _
  | lpfProc x => exact IgnoresAnalyzer.command (.bind (.lpfProcess x) fun _ => .pure _) hs h
  | zdProc x => exact IgnoresAnalyzer.command (.bind (.zdProcess x) fun _ => .pure _) hs h
  | cdProc x => exact IgnoresAnalyzer.command (.bind (.cdProcess x) fun _ => .pure _) hs h
  | ctProc x => exact IgnoresAnalyzer.command (.bind (.ctProcess x) fun _ => .pure _) hs h
  | vSetRate v p =>
    refine IgnoresAnalyzer.command ?_ hs h
    exact .bind (.requireVoice v) fun _ => .bind (.require _ _) fun _ => .bind (.voiceSetRate v p) fun _ => .pure _
  | vSetWave v len =>
    refine IgnoresAnalyzer.command ?_ hs h
    exact .bind (.requireVoice v) fun _ => .get (fun _ => .bind (.require _ _) fun _ =>
      .bind (.voiceSetWaveform v len) fun _ => .pure _) fun _ => rfl
  | vNext v =>
    refine IgnoresAnalyzer.command ?_ hs h
    exact .bind (.requireVoice v) fun _ => .bind (.voiceNext v) fun _ => .pure _
  | engProc x => exact IgnoresAnalyzer.command (.bind (.engProcess x) fun _ => .pure _) hs h
  | pipeSmp x => exact IgnoresAnalyzer.command (.bind (.sampleStep x) fun _ => .pure _) hs h
  | pipeBlk =>
    refine IgnoresAnalyzer.command ?_ hs h
    exact .bind (.modify fun _ => rfl) fun _ => .get (fun _ =>
      .bind (.forFrom IgnoresAnalyzer.blockSample _ 0) fun _ => .pure _) fun _ => rfl
  | ctick c0 c1 c2 c3 =>
    refine IgnoresAnalyzer.command ?_ hs h
    exact .bind (.modify fun _ => rfl) fun _ => .pure _

end Sys2Proof.Machine
end

section
/-! SUPPORT. What the analyzer agent leaves alone, from any state (spec/60_exceptions.md R262; 45_pipeline.md R229,
R230). -/

namespace Sys2Proof.Machine

/-! ## The writes of the analyzer -/

/-- The spaces that an analysis writes (43_analyzer.md R160 to R163). -/
def Space.isWork : Space → Bool
  | .anRe | .anIm | .anPhase => true
  | _ => false

/-- `P` is kept by every write of an analysis (43_analyzer.md R160 to R167). -/
structure AnalyzerKeeps (P : State → Prop) : Prop where
  cell : ∀ s sp i w, sp.isWork = true → P s → P (s.poke sp i w)
  registers : ∀ s x, P s → P (s.setAn x)
  fault : ∀ s c i, P s → P (s.recordFault c i)

namespace AnalyzerKeeps
variable {P : State → Prop} (h : AnalyzerKeeps P)
include h

theorem storeCell {sp : Space} (hsp : sp.isWork = true) (i : Nat) (w : Word) : Keeps P (storeCell sp i w) :=
  keeps_storeCell fun s _ hs => h.cell s sp i w hsp hs

theorem anLoad : Keeps P anLoad :=
  keeps_bind (keeps_get P) fun _ =>
    keeps_forFrom (fun _ => keeps_bind (keeps_loadCell _ _ _) fun _ => h.storeCell rfl _ _) _ 0

theorem anWindow : Keeps P anWindow :=
  keeps_bind (keeps_get P) fun _ => keeps_forFrom (fun _ => keeps_bind (keeps_loadCell _ _ _) fun _ =>
    keeps_bind (keeps_loadCell _ _ _) fun _ => keeps_bind (h.storeCell rfl _ _) fun _ => h.storeCell rfl _ _) _ 0

theorem swapCells {sp : Space} (hsp : sp.isWork = true) (i j : Nat) : Keeps P (swapCells sp i j) :=
  keeps_bind (keeps_loadCell _ _ _) fun _ => keeps_bind (keeps_loadCell _ _ _) fun _ =>
    keeps_bind (h.storeCell hsp _ _) fun _ => h.storeCell hsp _ _

theorem anPermute (n bits : Nat) : Keeps P (anPermute n bits) :=
  keeps_forFrom (fun _ => keeps_ite (fun _ => keeps_bind (h.swapCells rfl _ _) fun _ => h.swapCells rfl _ _)
    fun _ => keeps_pure _ _) n 0

theorem butterfly (a b t : Nat) : Keeps P (butterfly a b t) := by
  refine keeps_bind (keeps_loadCell _ _ _) fun _ => keeps_bind (keeps_loadCell _ _ _) fun _ => ?_
  refine keeps_bind (keeps_loadCell _ _ _) fun _ => keeps_bind (keeps_loadCell _ _ _) fun _ => ?_
  refine keeps_bind (keeps_loadCell _ _ _) fun _ => keeps_bind (keeps_loadCell _ _ _) fun _ => ?_
  refine keeps_bind (h.storeCell rfl _ _) fun _ => keeps_bind (h.storeCell rfl _ _) fun _ => ?_
  exact keeps_bind (h.storeCell rfl _ _) fun _ => h.storeCell rfl _ _

theorem anFft : Keeps P anFft :=
  keeps_bind (keeps_get P) fun _ => keeps_bind (h.anPermute _ _) fun _ =>
    keeps_forFrom (fun _ => keeps_forFrom (fun _ => keeps_forFrom (fun _ => h.butterfly _ _ _) _ 0) _ 0) _ 1

theorem anPeak : Keeps P anPeak := by
  have hmagnitude : ∀ b, Keeps P (binMagnitude b) := fun b =>
    keeps_bind (keeps_loadCell _ _ _) fun _ => keeps_bind (keeps_loadCell _ _ _) fun _ => keeps_pure _ _
  have hsearch : ∀ n b k best, Keeps P (peakSearch n b k best) := by
    intro n
    induction n with
    | zero => exact fun _ k _ => keeps_pure P k
    | succ n ih => exact fun b _ _ => keeps_bind (hmagnitude b) fun _ => keeps_ite (fun _ => ih _ _ _) fun _ => ih _ _ _
  refine keeps_bind (keeps_get P) fun _ => keeps_bind (hmagnitude 0) fun _ => keeps_bind (hsearch _ _ _ _) fun _ => ?_
  refine keeps_bind (keeps_loadCell _ _ _) fun _ => keeps_bind (keeps_forFrom (fun _ => ?_) _ 0) fun _ => ?_
  · exact keeps_bind (keeps_loadCell _ _ _) fun _ => keeps_bind (keeps_loadCell _ _ _) fun _ => h.storeCell rfl _ _
  · exact keeps_bind (keeps_modify fun s hs => h.registers s _ hs) fun _ => keeps_bind (keeps_loadCell _ _ _) fun _ =>
      keeps_pure _ _

theorem anCoarse (k : Nat) : Keeps P (anCoarse k) :=
  .of_leaves fun s hs => .of_ok (anCoarse_apply k s) (h.registers s _ hs)

theorem anRefine (pk : Peak) (fEst : F32) : Keeps P (anRefine pk fEst) := by
  refine .of_leaves fun s hs => ?_
  cases href : refined s.cfg pk fEst with
  | some f => exact .of_ok (anRefine_of_some href) hs
  | none => exact .of_error (anRefine_of_none href) (h.fault s _ _ hs)

theorem anRun : Keeps P anRun :=
  keeps_bind h.anWindow fun _ => keeps_bind h.anFft fun _ => keeps_bind h.anPeak fun _ =>
    keeps_bind (h.anCoarse _) fun _ => h.anRefine _ _

end AnalyzerKeeps

/-! ## The agent's steps -/

theorem State.fault_of_runEnabled {s : State} (h : s.runEnabled = true) : s.fault = 0 := by
  by_contra hne
  rw [State.runEnabled_of_fault hne] at h
  cases h

theorem State.fault_of_takeEnabled {s : State} (h : s.takeEnabled = true) : s.fault = 0 := by
  simp only [State.takeEnabled, Bool.and_eq_true, beq_iff_eq] at h
  obtain ⟨⟨⟨⟨-, hnone⟩, -⟩, -⟩, -⟩ := h
  exact hnone

/-- An agent step leaves what its pseudocode leaves: no agent step refuses (00_scope.md R14). -/
theorem agentOutcome_leaves {P : State → Prop} {body : M Unit} {s t : State} (hs : P s) (hbody : Keeps P body)
    (h : agentOutcome body s = .next t) : P t := by
  have hleaves := hbody.leaves hs
  unfold agentOutcome at h
  cases hb : body s with
  | ok a u => rw [hb] at h; cases h; exact hleaves.post hb
  | error e u =>
    rw [hb] at h
    cases e with
    | raised => cases h; exact hleaves.stop hb
    | refused st => cases h; exact hs
    | fault f => cases h

/-- `t` has the audio part of `s`, unless a fault is recorded. -/
def State.AudioKept (s t : State) : Prop := t.fault ≠ 0 ∨ t.audioPart = s.audioPart

theorem State.AudioKept.refl (s : State) : s.AudioKept s := .inr rfl

/-- An update of what is blanked out. -/
theorem State.AudioKept.update {s t u : State} (h : s.AudioKept t) (hfault : u.fault = t.fault)
    (haudio : u.audioPart = t.audioPart) : s.AudioKept u :=
  h.imp (fun hne => by rwa [hfault]) haudio.trans

theorem State.AudioKept.analyzerKeeps (s : State) : AnalyzerKeeps s.AudioKept where
  cell t sp i w hsp h := h.update rfl (by
    cases sp with
    | anRe | anIm | anPhase => rfl
    | _ => cases hsp)
  registers _ _ h := h.update rfl rfl
  fault t c i _ := .inl (t.recordFault_fault_ne c i)

theorem anTake_audioKept (s : State) : Keeps s.AudioKept anTake :=
  keeps_bind (State.AudioKept.analyzerKeeps s).anLoad fun _ => keeps_modify fun _ h => h.update rfl rfl

theorem anFinish_audioKept (s : State) : Keeps s.AudioKept anFinish :=
  keeps_bind (State.AudioKept.analyzerKeeps s).anRun fun f => keeps_modify fun t h => by
    unfold State.published
    split <;> exact h.update rfl rfl

/-- A step of the agent, which is enabled only while no fault is recorded (R229, R230). -/
theorem analyzerTurn_audioPart {s t : State} (h : analyzerTurn s = .next t) (hfault : t.fault = s.fault) :
    t.audioPart = s.audioPart := by
  have hkept : s.fault = 0 → s.AudioKept t → t.audioPart = s.audioPart := fun hnone hk =>
    hk.resolve_left (not_not.2 (hfault.trans hnone))
  unfold analyzerTurn at h
  split at h
  case isTrue hrun =>
    exact hkept (State.fault_of_runEnabled hrun) (agentOutcome_leaves (.refl s) (anFinish_audioKept s) h)
  case isFalse =>
    split at h
    case isTrue htake =>
      exact hkept (State.fault_of_takeEnabled htake) (agentOutcome_leaves (.refl s) (anTake_audioKept s) h)
    case isFalse => cases h; rfl

end Sys2Proof.Machine

open Sys2Proof Sys2Proof.Machine

/-- Settles O56: no command of the audio path reads what the analyzer agent writes, and no agent step writes more. -/
theorem audioIgnoresAnalyzer : Obligations.AudioIgnoresAnalyzer :=
  ⟨fun _ _ _ _ hi hs h => exec_ignoresAnalyzer hi hs h, fun _ _ h hfault => analyzerTurn_audioPart h hfault⟩
end

section
/-! SUPPORT. The control and frequency mailboxes in a ready block (spec/45_pipeline.md R225, R228). -/

namespace Sys2Proof.Machine

section
variable {s : State} (hs : s.ready)
include hs

theorem exec_ctick_of_ready (c0 c1 c2 c3 : F32) : exec (.ctick c0 c1 c2 c3) s
    = .next ((s.setCtrl { s.ctrl with mb := { c0 := c0, c1 := c1, c2 := c2, c3 := c3 }, present := true }).respond
        .ok []) := by
  have hexec : exec (.ctick c0 c1 c2 c3) s = execCtick c0 c1 c2 c3 s := rfl
  rw [hexec, execCtick, workCommand_of_ready hs]
  exact outcomeOf_andThen_pure (M.modify_apply _ s)

/-- FPOLL answers with the estimate if there is one (R228). -/
theorem exec_fpoll_of_ready : exec .fpoll s =
    if s.freq.present = true then .next ((s.setFreq { s.freq with present := false }).respond .ok [1, s.freq.value])
    else .next (s.respond .ok [0, pzero]) := by
  have hexec : exec .fpoll s = execFpoll s := rfl
  rw [hexec, execFpoll, workCommand_of_ready hs, outcomeOf_bind_of_ok (M.get_apply s)]
  split
  · exact outcomeOf_andThen_pure (M.set_apply _ s)
  · rfl

end

end Sys2Proof.Machine

open Sys2Proof Sys2Proof.Machine

/-- Settles O51: the flag of the frequency mailbox decides what FPOLL does. -/
theorem controlAndFrequencyMailboxes : Obligations.ControlAndFrequencyMailboxes := by
  intro s hs
  refine ⟨exec_ctick_of_ready hs, fun hpresent => ?_, fun hempty => ?_⟩
  · rw [exec_fpoll_of_ready hs, if_pos hpresent]
  · rw [exec_fpoll_of_ready hs, if_neg (by rw [hempty]; decide)]
end

section
/-! SUPPORT. The two steps of the analyzer agent, from the turn to the state they leave (spec/45_pipeline.md R229,
R230). -/

namespace Sys2Proof.Machine

/-! ## The turn (00_scope.md R17; logs 2 and 17) -/

/-- The analyzer agent moves in the state without the turn, whether the turn is its own or it takes a command turn. -/
theorem step_of_analyzerNext {s : State} (h : s.analyzerNext) : step s = analyzerTurn (s.endTurn s.port) := by
  rcases h with hsched | ⟨hnext, hdec⟩
  · obtain ⟨rest, hrest⟩ := List.head?_eq_some_iff.1 hsched
    have hturn : step s = analyzerTurn (s.setSched rest) := by
      unfold step takeTurn
      rw [hrest]
    rw [hturn, State.endTurn, hrest]
    rfl
  · rw [step_of_commandNext hnext, commandTurn_of_incomplete (s := s.setSched s.sched.tail) hdec]
    rfl

/-! ## AN_TAKE (R229) -/

theorem analyzerTurn_of_take {s u : State} (hbusy : s.an.busy = false) (htake : s.takeEnabled = true)
    (hload : anLoad s = .ok () u) :
    analyzerTurn s = .next ((u.setWmb { u.wmb with full := false }).setAn { u.an with busy := true }) := by
  have hbody : anTake s = .ok ⟨⟩ ((u.setWmb { u.wmb with full := false }).setAn { u.an with busy := true }) :=
    M.bind_of_ok hload
  unfold analyzerTurn agentOutcome
  rw [if_neg (by rw [State.runEnabled_of_idle hbusy]; decide), if_pos htake, hbody]

/-! ## AN_RUN (R230) -/

/-- The window in the work buffer of `s` with the coefficients applied, and what lies beyond the window. -/
def State.windowedBuffer (s : State) (i : Nat) : F32 × F32 :=
  if i < s.cfg.win.toNat then s.windowed i else s.workCell i

/-- The raw window in the work buffer turned into its spectrum (43_analyzer.md R161, R162). -/
theorem anTransform_apply {s : State} {b : Nat} (hr : s.running = true) (hwf : s.mem.wf = true)
    (hb : s.cfg.win.toNat = 2 ^ b) :
    ∃ u, anTransform s = .ok () u ∧ WorkOnly s u
      ∧ ∀ k, k < 2 ^ b → u.workCell k = radix2 s.twiddle b 1 s.windowedBuffer k := by
  obtain ⟨t, ht, hst, hwindowed⟩ := anWindow_apply hr hwf
  obtain ⟨u, hu, htu, hcells⟩ := anFft_apply (hst.running hr) hst.wf (by rw [hst.win, hb])
  have hbuffer : t.workCell = s.windowedBuffer := by
    funext i
    unfold State.windowedBuffer
    split
    case isTrue hi => exact hwindowed i hi
    case isFalse hi =>
      unfold State.workCell
      rw [hst.cells .anRe i fun h => hi h.2, hst.cells .anIm i fun h => hi h.2]
  rw [hst.twiddle, hbuffer] at hcells
  exact ⟨u, (M.bind_of_ok ht).trans hu, hst.trans htu, hcells⟩

/-- The turn that is taken plays no part in the transform. -/
theorem anTransform_endTurn {s u : State} (hinv : Inv s) (hr : s.running = true) (rest : List Word)
    (h : anTransform s = .ok () u) :
    ∃ u', anTransform (s.endTurn rest) = .ok () u' ∧ WorkOnly (s.endTurn rest) u' ∧ u.sameMemory u'
      ∧ u'.cfg = u.cfg := by
  obtain ⟨b, hb⟩ := window_of_valid (hinv.running hr).valid
  obtain ⟨u₀, hu₀, hwork, hcells⟩ := anTransform_apply hr hinv.memWf hb
  cases h.symm.trans hu₀
  obtain ⟨u', hu', hwork', hcells'⟩ := anTransform_apply (s := s.endTurn rest) hr hinv.memWf hb
  refine ⟨u', hu', hwork', fun sp i => ?_, hwork'.memOnly.cfg.trans hwork.memOnly.cfg.symm⟩
  by_cases hi : (sp = .anRe ∨ sp = .anIm) ∧ i < s.cfg.win.toNat
  · obtain ⟨hsp, hlt⟩ := hi
    have hcell : u'.workCell i = u.workCell i :=
      (hcells' i (hb ▸ hlt)).trans (hcells i (hb ▸ hlt)).symm
    rcases hsp with rfl | rfl
    · exact congrArg Prod.fst hcell
    · exact congrArg Prod.snd hcell
  · exact (hwork'.cells sp i hi).trans (hwork.cells sp i hi).symm

section
variable {u u' : State} (h : u.sameMemory u')
include h

theorem State.sameMemory.binMag (b : Nat) : u'.binMag b = u.binMag b := by
  unfold State.binMag
  rw [h, h]

theorem State.sameMemory.binPhase (b : Nat) : u'.binPhase b = u.binPhase b := by
  unfold State.binPhase
  rw [h, h]

theorem State.sameMemory.peakBin (hcfg : u'.cfg = u.cfg) {k : Nat} (hk : u.peakBin k) : u'.peakBin k := by
  unfold State.peakBin
  simp only [h.binMag, hcfg]
  exact hk

end

theorem anRun_eq : anRun = anTransform >>= fun _ => anMeasure := by
  unfold anRun anTransform anMeasure
  simp only [bind_assoc]

section
variable (s : State)

theorem State.published_mem (f : F32) : (s.published f).mem = s.mem := by
  unfold State.published
  split <;> rfl

/-- After an analysis the estimate is published, but for the first, which only primes the analyzer (R230). -/
theorem State.published_analysed (m : Memory) (k : Nat) (f : F32) : (s.analysed m k).published f =
    ((s.setMem m).setAn { k := u32 k, fEst := coarseEstimate s.cfg k, busy := false, primed := true }).setFreq
      (if s.an.primed = true then { value := f, present := true } else s.freq) := by
  unfold State.published
  rw [show (s.analysed m k).an.primed = s.an.primed from rfl]
  split
  case isTrue hprimed =>
    have han : ({ (s.analysed m k).an with busy := false } : An)
        = { k := u32 k, fEst := coarseEstimate s.cfg k, busy := false, primed := true } := by
      rw [← hprimed]
      rfl
    rw [← han]
    rfl
  case isFalse => rfl

end

/-- AN_RUN on a raw window with peak `k` (R230): the estimate published, or the fault of a refinement that does not
converge. -/
theorem analyzerTurn_of_run {s u : State} {k : Nat} (hinv : Inv s) (hr : s.running = true) (hnone : s.fault = 0)
    (hbusy : s.an.busy = true) (hu : anTransform s = .ok () u) (hwork : WorkOnly s u) (hk : u.peakBin k) :
    ∃ m, analyzerTurn s = .next
        ((s.estimate u k).elim ((s.analysed m k).setFault 6 (u32 k)) (s.analysed m k).published)
      ∧ (∀ b, b < s.cfg.win.toNat / 2 → (s.analysed m k).peek .anPhase b = u.binPhase b)
      ∧ u.sameMemoryBut (s.analysed m k) (fun sp _ => sp = .anPhase) := by
  obtain ⟨m, hmeasure, hphases, hframe⟩ := anMeasure_of_peakBin hinv hr hwork hk
  have hrun : anRun s = anRefine ⟨k, s.peek .anPhase k, u.binPhase k⟩ (coarseEstimate s.cfg k) (s.analysed m k) := by
    rw [anRun_eq, M.bind_of_ok hu, hmeasure]
  have henabled : s.runEnabled = true := by
    unfold State.runEnabled
    rw [hr, hnone, hbusy]
    rfl
  refine ⟨m, ?_, hphases, hframe⟩
  unfold analyzerTurn agentOutcome
  rw [if_pos henabled]
  cases hest : s.estimate u k with
  | some f =>
    have hbody : anFinish s = .ok ⟨⟩ ((s.analysed m k).published f) :=
      M.bind_of_ok (hrun.trans (anRefine_of_some (show refined (s.analysed m k).cfg _ _ = some f from hest)))
    rw [hbody]
    rfl
  | none =>
    have hbody : anFinish s = .error .raised ((s.analysed m k).recordFault .analyzerNoConverge (u32 k)) :=
      M.bind_of_error (hrun.trans (anRefine_of_none (show refined (s.analysed m k).cfg _ _ = none from hest)))
    rw [hbody, State.recordFault_of_none (show (s.analysed m k).fault = 0 from hnone)]
    rfl

end Sys2Proof.Machine

open Sys2Proof Sys2Proof.Machine

/-- Settles O53: the agent loads the window, then empties the slot and is busy. -/
theorem agentTakesWindow : Obligations.AgentTakesWindow := by
  intro s hwf hnext hr hnone hauto hfull hbusy
  have htake : (s.endTurn s.port).takeEnabled = true := by
    unfold State.takeEnabled
    rw [Bool.and_eq_true, Bool.and_eq_true, Bool.and_eq_true, Bool.and_eq_true]
    exact ⟨⟨⟨⟨hr, beq_iff_eq.2 hnone⟩, hauto⟩, hfull⟩, congrArg not hbusy⟩
  obtain ⟨u, hu, hmem, hcopied, hrest⟩ := anLoad_apply (s := s.endTurn s.port) hr hwf
  refine ⟨_, (step_of_analyzerNext hnext).trans (analyzerTurn_of_take hbusy htake hu), hcopied, fun sp i hi => ?_, ?_⟩
  · refine hrest sp i ?_
    by_contra! hin
    exact hi hin
  · rw [hmem.1]
    rfl

/-- Settles O54: the agent transforms the window it took, as the hypothesis says, and measures its peak. -/
theorem agentRunsAnalysis : Obligations.AgentRunsAnalysis := by
  intro s u k hinv hnext hr hnone hbusy hu hk
  obtain ⟨u', hu', hwork, hsame, hcfg⟩ := anTransform_endTurn hinv hr s.port hu
  have hinv' : Inv (s.endTurn s.port) := (hinv.setSched _).setPort _
  obtain ⟨m, hturn, hphases, hframe⟩ := analyzerTurn_of_run hinv' hr hnone hbusy hu' hwork (hsame.peakBin hcfg hk)
  have hestimate : (s.endTurn s.port).estimate u' k = s.estimate u k := by
    unfold State.estimate
    rw [hsame.binPhase]
    rfl
  rw [hestimate] at hturn
  have hmem : ((s.estimate u k).elim (((s.endTurn s.port).analysed m k).setFault 6 (u32 k))
      ((s.endTurn s.port).analysed m k).published).mem = m := by
    cases s.estimate u k with
    | some f => exact State.published_mem _ f
    | none => rfl
  refine ⟨_, (step_of_analyzerNext hnext).trans hturn, fun b hb => ?_, fun sp i hi => ?_, fun f hf => ?_, fun hf => ?_⟩
  · rw [State.peek, hmem]
    exact (hphases b hb).trans (hsame.binPhase b)
  · rw [State.peek, hmem]
    exact (hframe sp i hi).trans (hsame sp i)
  · rw [hmem, hf]
    exact State.published_analysed _ m k f
  · rw [hmem, hf]
    rfl
end

section
/-! SUPPORT. A sample through the pipeline up to the engine (spec/45_pipeline.md R220 to R223). -/

namespace Sys2Proof.Machine

/-! ## The window copied (R222) -/

/-- The cell of the history that holds number `i` of the window (R222). -/
def State.windowIndex (s : State) (i : Nat) : Nat := histIndex s.pipe.hwr.toNat s.cfg.hist.toNat s.cfg.win.toNat i

theorem State.windowCopied_succ (s : State) (n : Nat) :
    s.windowCopied (n + 1) = (s.windowCopied n).poke .wmb n (s.peek .hist (s.windowIndex n)) := rfl

section
variable {s : State}

theorem State.windowCopied_memOnly (hwf : s.mem.wf = true) (n : Nat) : MemOnly s (s.windowCopied n) := by
  induction n with
  | zero => exact .refl hwf
  | succ n ih => exact ih.poke .wmb n _

theorem State.peek_windowCopied_of_ne {sp : Space} {i n : Nat} (h : sp ≠ .wmb ∨ n ≤ i) :
    (s.windowCopied n).peek sp i = s.peek sp i := by
  induction n with
  | zero => rfl
  | succ n ih =>
    rw [State.windowCopied_succ, State.peek_poke_ne _ _ (h.imp id fun hle => by omega)]
    exact ih (h.imp id fun hle => by omega)

theorem State.peek_windowCopied (hwf : s.mem.wf = true) {i n : Nat} (hi : i < n) :
    (s.windowCopied n).peek .wmb i = s.peek .hist (s.windowIndex i) := by
  induction n with
  | zero => exact absurd hi (Nat.not_lt_zero i)
  | succ n ih =>
    rw [State.windowCopied_succ]
    by_cases hin : i = n
    · subst hin
      exact State.peek_poke_same _ _ _ (State.windowCopied_memOnly hwf i).2
    · rw [State.peek_poke_ne _ _ (.inr hin)]
      exact ih (by omega)

/-- The loop of `PublishWindow` copies the window (R222). -/
theorem windowLoop_apply (hr : s.running = true) (hwf : s.mem.wf = true) (hhist : 0 < s.cfg.hist.toNat) :
    forFrom s.cfg.win.toNat 0 (fun i => loadCell .hist (s.windowIndex i) >>= fun w => storeCell .wmb i w) s
      = .ok () (s.windowCopied s.cfg.win.toNat) := by
  have hsize := spaceSize_of_running hr
  obtain ⟨t, ht, hcopied⟩ := forFrom_ok (P := fun i t => t = s.windowCopied i) (s := s)
    (body := fun i => loadCell .hist (s.windowIndex i) >>= fun w => storeCell .wmb i w) s.cfg.win.toNat 0
    (fun i t _ hi ht => by
      have hmem := State.windowCopied_memOnly hwf i
      have hload : s.windowIndex i < (s.windowCopied i).spaceSize .hist := by
        rw [hmem.spaceSize, hsize]
        exact Nat.mod_lt _ hhist
      have hstore : i < (s.windowCopied i).spaceSize .wmb := by
        rw [hmem.spaceSize, hsize]
        exact Nat.lt_of_lt_of_eq hi (Nat.zero_add _)
      refine ⟨_, ?_, rfl⟩
      rw [ht, M.bind_of_ok (loadCell_of_lt hload), State.peek_windowCopied_of_ne (.inl (by decide)),
        storeCell_of_lt hstore, State.windowCopied_succ])
    rfl
  rw [hcopied, Nat.zero_add] at ht
  exact ht

/-! ## The publication (R222) -/

/-- The state after `PublishWindow` (R222). -/
def State.windowPublished (s : State) : State :=
  if s.ctl.anAuto = true ∧ s.pipe.fill = s.cfg.win then
    (s.windowCopied s.cfg.win.toNat).setWmb
      { full := true, drop := if s.wmb.full then satInc s.wmb.drop else s.wmb.drop }
  else s

theorem publishWindow_apply (hr : s.running = true) (hwf : s.mem.wf = true) (hhist : 0 < s.cfg.hist.toNat) :
    publishWindow s = .ok () s.windowPublished := by
  unfold State.windowPublished
  split
  case isTrue hpublish =>
    unfold publishWindow
    rw [M.bind_of_ok (M.get_apply s), M.ite_of_true (by simp [hpublish])]
    refine (M.bind_of_ok (windowLoop_apply hr hwf hhist)).trans ?_
    rw [M.modify_apply, (State.windowCopied_memOnly hwf _).1]
    rfl
  case isFalse hkeep =>
    refine publishWindow_none ?_
    rwa [not_and_or, Bool.not_eq_true] at hkeep

end

/-! ## The history written and the window published (R220, R221) -/

/-- A hop ends with this sample (R220). -/
def State.hopEnds (s : State) : Prop := s.pipe.hopCnt.toNat + 1 = s.cfg.hop.toNat

/-- The window is published with this sample (R220, R222). -/
def State.publishes (s : State) : Prop :=
  s.hopEnds ∧ s.ctl.anAuto = true ∧ min (s.pipe.fill.toNat + 1) s.cfg.win.toNat = s.cfg.win.toNat

/-- The state with a sample in the history, before a publication (R220, R221). -/
def State.counted (s : State) (x : F32) : State :=
  (s.poke .hist s.pipe.hwr.toNat x).setPipe
    { hwr := incMod s.pipe.hwr s.cfg.hist
      fill := u32 (min (s.pipe.fill.toNat + 1) s.cfg.win.toNat)
      hopCnt := if s.pipe.hopCnt.toNat + 1 = s.cfg.hop.toNat then 0 else u32 (s.pipe.hopCnt.toNat + 1) }

theorem u32_succ (w : Word) : w + 1 = u32 (w.toNat + 1) := by
  apply BitVec.eq_of_toNat_eq
  rw [BitVec.toNat_add, u32, BitVec.toNat_ofNat]
  rfl

section
variable (s : State) (x : F32)

theorem State.counted_hopCnt_of_hopEnds (h : s.hopEnds) : (s.counted x).pipe.hopCnt = 0 := if_pos h

theorem State.counted_hopCnt_of_not_hopEnds (h : ¬ s.hopEnds) : (s.counted x).pipe.hopCnt = s.pipe.hopCnt + 1 :=
  (if_neg h).trans (u32_succ _).symm

theorem State.counted_of_hopEnds (h : s.hopEnds) :
    s.counted x = (s.historyWritten x).setPipe { (s.historyWritten x).pipe with hopCnt := 0 } := by
  rw [← s.counted_hopCnt_of_hopEnds x h]
  rfl

theorem State.counted_of_not_hopEnds (h : ¬ s.hopEnds) : s.counted x = s.historyWritten x := by
  unfold State.historyWritten
  rw [← s.counted_hopCnt_of_not_hopEnds x h]
  rfl

theorem State.counted_wf (hwf : s.mem.wf = true) : (s.counted x).mem.wf = true := State.poke_wf (s := s) _ _ _ hwf

theorem State.counted_fill_toNat : (s.counted x).pipe.fill.toNat = min (s.pipe.fill.toNat + 1) s.cfg.win.toNat := by
  have hwin := s.cfg.win.isLt
  refine (BitVec.toNat_ofNat _ _).trans (Nat.mod_eq_of_lt ?_)
  omega

theorem State.counted_fill_iff :
    (s.counted x).pipe.fill = s.cfg.win ↔ min (s.pipe.fill.toNat + 1) s.cfg.win.toNat = s.cfg.win.toNat := by
  rw [← BitVec.toNat_inj, s.counted_fill_toNat]

theorem State.recorded_of_publishes (h : s.publishes) : s.recorded x =
    ((s.counted x).windowCopied s.cfg.win.toNat).setWmb
      { full := true, drop := if s.wmb.full then satInc s.wmb.drop else s.wmb.drop } := by
  obtain ⟨hend, hauto, hfill⟩ := h
  rw [satInc_eq_min]
  exact if_pos ⟨hend, hauto, (s.counted_fill_iff x).2 hfill⟩

theorem State.recorded_of_not_publishes (h : ¬ s.publishes) : s.recorded x = s.counted x :=
  if_neg fun ⟨hend, hauto, hfill⟩ => h ⟨hend, hauto, (s.counted_fill_iff x).1 hfill⟩

theorem State.recorded_of_hopEnds (h : s.hopEnds) : s.recorded x = (s.counted x).windowPublished := by
  unfold State.windowPublished
  split
  case isTrue hpublish => exact s.recorded_of_publishes x ⟨h, hpublish.1, (s.counted_fill_iff x).1 hpublish.2⟩
  case isFalse hkeep =>
    exact s.recorded_of_not_publishes x fun ⟨_, hauto, hfill⟩ => hkeep ⟨hauto, (s.counted_fill_iff x).2 hfill⟩

/-- The copy into the slot is all that the publication does to the memory, and the flag and the count to the
registers. -/
theorem State.recorded_eq (hwf : s.mem.wf = true) :
    s.recorded x = ((s.counted x).setWmb (s.recorded x).wmb).setMem (s.recorded x).mem := by
  by_cases h : s.publishes
  · rw [s.recorded_of_publishes x h, (State.windowCopied_memOnly (s.counted_wf x hwf) _).1]
    rfl
  · rw [s.recorded_of_not_publishes x h]
    rfl

/-- The publication writes the slot alone. -/
theorem State.peek_recorded_of_ne {sp : Space} {i : Nat} (h : sp ≠ .wmb ∨ s.cfg.win.toNat ≤ i) :
    (s.recorded x).peek sp i = (s.counted x).peek sp i := by
  by_cases hpub : s.publishes
  · rw [s.recorded_of_publishes x hpub]
    exact State.peek_windowCopied_of_ne h
  · rw [s.recorded_of_not_publishes x hpub]

theorem State.peek_counted_same (hwf : s.mem.wf = true) : (s.counted x).peek .hist s.pipe.hwr.toNat = x :=
  State.peek_poke_same (s := s) .hist _ x hwf

theorem State.peek_counted_of_ne {sp : Space} {i : Nat} (h : sp ≠ .hist ∨ i ≠ s.pipe.hwr.toNat) :
    (s.counted x).peek sp i = s.peek sp i := s.peek_poke_ne x h

end

section
variable {c : Cfg} {s : State} (h : Sound c s)
include h

theorem Sound.hopCnt_lt : s.pipe.hopCnt.toNat + 1 < 2 ^ 32 := by
  have hhop := h.run.hopCnt
  have hlt := s.cfg.hop.isLt
  omega

/-- The hop counter reaches the hop length as a word when it does as a number (R220). -/
theorem Sound.hopEnds_iff : (s.pipe.hopCnt + 1 == s.cfg.hop) = true ↔ s.hopEnds := by
  rw [beq_iff_eq, u32_succ, ← BitVec.toNat_inj, u32, BitVec.toNat_ofNat, Nat.mod_eq_of_lt h.hopCnt_lt]
  rfl

theorem Sound.hist_pos : 0 < s.cfg.hist.toNat := Nat.zero_lt_of_lt h.run.hwr

theorem Sound.counted (x : F32) : Sound c (s.counted x) := by
  refine h.recordSample x ?_
  rw [← h.cfg]
  have hhop := h.run.hopCnt
  split
  case isTrue hend => exact hend ▸ Nat.succ_pos _
  case isFalse hwithin =>
    rw [u32, BitVec.toNat_ofNat, Nat.mod_eq_of_lt h.hopCnt_lt]
    omega

theorem Sound.windowPublished : Sound c s.windowPublished :=
  (publishWindow_keeps s h).1 () _ (publishWindow_apply h.running h.memWf h.hist_pos)

theorem Sound.recorded (x : F32) : Sound c (s.recorded x) := by
  by_cases hend : s.hopEnds
  · rw [s.recorded_of_hopEnds x hend]
    exact (h.counted x).windowPublished
  · rw [s.recorded_of_not_publishes x fun hpub => hend hpub.1]
    exact h.counted x

/-- A sample through the pipeline is the engine on the recorded state (R220). -/
theorem sampleStep_apply (x : F32) : sampleStep x s = engProcess x (s.recorded x) := by
  have hwrite : historyWrite x s = .ok () (s.historyWritten x) := historyWrite_apply h.running h.run.hwr
  unfold sampleStep
  rw [M.bind_of_ok hwrite, M.bind_of_ok (M.get_apply _)]
  by_cases hend : s.hopEnds
  · have hpublish := publishWindow_apply (h.counted x).running (h.counted x).memWf (h.counted x).hist_pos
    refine (M.ite_of_true (h.hopEnds_iff.2 hend) _ _ _).trans ?_
    rw [M.bind_of_ok (M.set_apply _ _), ← s.counted_of_hopEnds x hend, s.recorded_of_hopEnds x hend]
    exact M.bind_of_ok hpublish
  · refine (M.ite_of_false (Bool.eq_false_of_not_eq_true (mt h.hopEnds_iff.1 hend)) _ _ _).trans ?_
    rw [← s.counted_of_not_hopEnds x hend, s.recorded_of_not_publishes x fun hpub => hend hpub.1]

end

end Sys2Proof.Machine
end

section
/-! SUPPORT. PIPE.SMP in a ready block (spec/45_pipeline.md R220 to R223). -/

namespace Sys2Proof.Machine

/-! ## The recorded state (R220 to R222) -/

section
variable {s : State} (x : F32)

theorem State.recorded_pipe (hwf : s.mem.wf = true) : (s.recorded x).pipe = (s.counted x).pipe := by
  rw [s.recorded_eq x hwf]
  rfl

theorem State.recorded_fault (hwf : s.mem.wf = true) : (s.recorded x).fault = s.fault := by
  rw [s.recorded_eq x hwf]
  rfl

theorem State.recorded_ctrl (hwf : s.mem.wf = true) : (s.recorded x).ctrl = s.ctrl := by
  rw [s.recorded_eq x hwf]
  rfl

/-- The pipeline's counters, the flag and the count of the slot, and the memory are all that differ. -/
theorem State.recorded_frame (hwf : s.mem.wf = true) :
    s.recorded x = ((s.setPipe (s.recorded x).pipe).setWmb (s.recorded x).wmb).setMem (s.recorded x).mem := by
  rw [State.recorded_pipe x hwf]
  exact s.recorded_eq x hwf

theorem State.recorded_hwr_toNat (hwf : s.mem.wf = true) (hhist : 0 < s.cfg.hist.toNat) :
    (s.recorded x).pipe.hwr.toNat = (s.pipe.hwr.toNat + 1) % s.cfg.hist.toNat := by
  rw [State.recorded_pipe x hwf]
  refine (BitVec.toNat_ofNat _ _).trans (Nat.mod_eq_of_lt ?_)
  exact (Nat.mod_lt _ hhist).trans s.cfg.hist.isLt

theorem State.peek_recorded_sample (hwf : s.mem.wf = true) : (s.recorded x).peek .hist s.pipe.hwr.toNat = x := by
  rw [s.peek_recorded_of_ne x (.inl (by decide)), s.peek_counted_same x hwf]

/-- The slot holds the window, the oldest sample first (R222). -/
theorem State.peek_recorded_slot (hwf : s.mem.wf = true) (hpub : s.publishes) {i : Nat} (hi : i < s.cfg.win.toNat) :
    (s.recorded x).peek .wmb i = (s.recorded x).peek .hist ((s.counted x).windowIndex i) := by
  rw [s.peek_recorded_of_ne x (sp := .hist) (.inl (by decide)), s.recorded_of_publishes x hpub]
  exact State.peek_windowCopied (s.counted_wf x hwf) hi

theorem State.recorded_cells : s.sameMemoryBut (s.recorded x)
    (fun sp i => (sp = .hist ∧ i = s.pipe.hwr.toNat) ∨ (sp = .wmb ∧ i < s.cfg.win.toNat)) := by
  intro sp i hi
  rw [not_or, not_and_or, not_and_or, Nat.not_lt] at hi
  rw [s.peek_recorded_of_ne x hi.2, s.peek_counted_of_ne x hi.1]

end

/-! ## The engine never refuses -/

theorem mixVoices_ne_refused (amp : F32) (n i : Nat) (acc : F32) (s t : State) (st : Status) :
    mixVoices amp n i acc s ≠ .error (.refused st) t := by
  induction n generalizing i acc s with
  | zero => exact fun h => nomatch h
  | succ n ih =>
    intro h
    rcases M.bind_error_iff.1 h with hnext | ⟨y, u, -, hrest⟩
    · rcases voiceNext_cases i s with ⟨_, h'⟩ | ⟨_, _, h'⟩ | ⟨_, h'⟩ <;> cases h'.symm.trans hnext
    · exact ih _ _ _ hrest

/-- Pseudocode that is not refused is answered by what it comes to, wherever it starts. -/
theorem outcomeOf_eq_of_ne_refused {x y : M (List Word)} {s t : State} (h : x s = y t)
    (hne : ∀ st u, y t ≠ .error (.refused st) u) : outcomeOf x s = outcomeOf y t := by
  unfold outcomeOf
  rw [h]
  cases hy : y t with
  | ok rs u => rfl
  | error e u =>
    cases e with
    | refused st => exact absurd hy (hne st u)
    | raised | fault => rfl

/-! ## The command -/

section
variable {s : State} (hinv : Inv s) (hs : s.ready) (x : F32)
include hinv hs

theorem recorded_ready : Inv (s.recorded x) ∧ (s.recorded x).ready ∧ (s.recorded x).cfg = s.cfg := by
  have h := (Sound.of_inv hinv rfl hs.1).recorded x
  exact ⟨h.inv, ⟨h.running, (State.recorded_fault x hinv.memWf).trans hs.2⟩, h.cfg⟩

theorem exec_pipeSmp_eq : exec (.pipeSmp x) s = exec (.engProc x) (s.recorded x) := by
  have hexec : exec (.pipeSmp x) s = execPipeSmp x s := rfl
  obtain ⟨hinv', hs', -⟩ := recorded_ready hinv hs x
  rw [hexec, execPipeSmp, workCommand_of_ready hs, exec_engProc_of_ready hs']
  have hsample := sampleStep_apply (Sound.of_inv hinv rfl hs.1) x
  refine outcomeOf_eq_of_ne_refused (by rw [M.bind_apply, hsample, M.bind_apply]) fun st u hrefused => ?_
  rcases M.bind_error_iff.1 hrefused with hengine | ⟨_, _, -, hpure⟩
  · rw [engProcess_of_ready hinv' hs'] at hengine
    exact mixVoices_ne_refused _ _ _ _ _ _ _ hengine
  · cases hpure

end

end Sys2Proof.Machine

open Sys2Proof Sys2Proof.Machine

/-- Settles O48: the history, the counters and the publication of a sample, before the engine runs. -/
theorem pipeSampleRecords : Obligations.PipeSampleRecords := by
  intro s x hinv hs n cap fill boundary publish h
  have hsound := Sound.of_inv hinv rfl hs.1
  have hwf := hinv.memWf
  have hpipe : h.pipe = (s.counted x).pipe := State.recorded_pipe x hwf
  refine ⟨exec_pipeSmp_eq hinv hs x, State.recorded_frame x hwf, State.recorded_hwr_toNat x hwf hsound.hist_pos, ?_,
    fun hend => ?_, fun hend => ?_, State.peek_recorded_sample x hwf, fun hpub => ⟨?_, fun i hi => ?_⟩,
    fun hpub => ?_, State.recorded_cells x⟩
  · rw [hpipe]
    exact s.counted_fill_toNat x
  · rw [hpipe]
    exact s.counted_hopCnt_of_hopEnds x hend
  · rw [hpipe, s.counted_hopCnt_of_not_hopEnds x hend, u32_succ]
    exact (BitVec.toNat_ofNat _ _).trans (Nat.mod_eq_of_lt hsound.hopCnt_lt)
  · exact congrArg State.wmb (s.recorded_of_publishes x hpub)
  · rw [hpipe]
    exact State.peek_recorded_slot x hwf hpub hi
  · have hkeep : h = s.counted x := s.recorded_of_not_publishes x hpub
    rw [hkeep]
    exact ⟨rfl, fun i => s.peek_counted_of_ne x (.inl (by decide))⟩

/-- Settles O49: the engine mixes in the recorded state. -/
theorem pipeSampleCompletes : Obligations.PipeSampleCompletes := by
  intro s x hinv hs r hplay
  obtain ⟨hinv', hs', hcfg⟩ := recorded_ready hinv hs x
  rw [← hcfg] at hplay ⊢
  rw [exec_pipeSmp_eq hinv hs]
  exact engineMixes _ x hinv' hs' hplay
end

section
/-! SUPPORT. PIPE.BLK in a ready block: the samples of a block in order (spec/45_pipeline.md R224, R226). -/

namespace Sys2Proof.Machine

/-! ## What a sample leaves alone (R220) -/

section
variable (s : State) (x : F32)

theorem State.assigned_mem (y : Cycle) : (s.assigned y).mem = s.mem := by
  rcases s.assigned_cases y with hy | hy
  · rw [hy]
  · rw [hy]; rfl

theorem State.assigned_ctrl (y : Cycle) : (s.assigned y).ctrl = s.ctrl := by
  rcases s.assigned_cases y with hy | hy
  · rw [hy]
  · rw [hy]; rfl

theorem State.peek_tracked {sp : Space} (h : sp ≠ .ring) (i : Nat) : (s.tracked x).peek sp i = s.peek sp i := by
  rw [State.tracked, State.peek, State.assigned_mem, State.track_mem]
  exact s.peek_poke_ne x (.inl h)

theorem State.peek_sampleReady {sp : Space} (hring : sp ≠ .ring) (hhist : sp ≠ .hist) (hwmb : sp ≠ .wmb) (i : Nat) :
    (s.sampleReady x).peek sp i = s.peek sp i := by
  rw [State.sampleReady, State.peek_tracked _ x hring, s.peek_recorded_of_ne x (.inl hwmb),
    s.peek_counted_of_ne x (.inl hhist)]

end

theorem State.sampleReady_ctrl {s : State} (hwf : s.mem.wf = true) (x : F32) : (s.sampleReady x).ctrl = s.ctrl := by
  rw [State.sampleReady, State.tracked, State.assigned_ctrl, State.track_ctrl, State.recorded_ctrl x hwf]

theorem State.sampleReady_fault {s : State} (hwf : s.mem.wf = true) (x : F32) : (s.sampleReady x).fault = s.fault := by
  rw [State.sampleReady, State.tracked_fault, State.recorded_fault x hwf]

/-! ## One sample (R220, R224) -/

/-- The state the voices play in for sample `n` of the input block. -/
def State.blockReady (s : State) (n : Nat) : State := s.sampleReady (s.peek .inBuf n)

/-- The state after sample `n` of the block, when every voice plays. -/
def State.afterSample (s : State) (n : Nat) : State :=
  ((s.blockReady n).advancedTo s.cfg.nv.toNat).poke .outBuf n ((s.blockReady n).mixOf s.cfg.nv.toNat)

theorem State.afterSamples_succ (s : State) (n : Nat) :
    s.afterSamples (n + 1) = (s.afterSamples n).afterSample n := rfl

section
variable {c : Cfg} {s : State} (h : Sound c s)
include h

theorem Sound.advancedTo {n : Nat} (hn : n ≤ c.nv.toNat) : Sound c (s.advancedTo n) := by
  induction n with
  | zero => rwa [s.advancedTo_zero]
  | succ n ih =>
    rw [s.advancedTo_succ]
    have hprev := ih (by omega)
    exact hprev.setVoice (hprev.inBounds.hasVoice (by omega)) (h.voiceInv (h.inBounds.hasVoice (by omega))).advance

theorem Sound.sampleReady (x : F32) : Sound c (s.sampleReady x) := (h.recorded x).tracked x

theorem Sound.afterSample {n : Nat} (hn : n < c.block.toNat) : Sound c (s.afterSample n) := by
  have hmixed : Sound c ((s.blockReady n).advancedTo s.cfg.nv.toNat) :=
    (h.sampleReady _).advancedTo (by rw [h.cfg])
  exact hmixed.poke _ (by rw [hmixed.inBounds.spaceSize]; exact hn) rfl

theorem Sound.afterSamples {n : Nat} (hn : n ≤ c.block.toNat) : Sound c (s.afterSamples n) := by
  induction n with
  | zero => exact h
  | succ n ih => exact (ih (by omega)).afterSample (by omega)

/-- The pseudocode of a sample is the mix in the state the voices play in. -/
theorem sampleStep_eq_mix (x : F32) : sampleStep x s
    = mixVoices (s.sampleReady x).eng.amp s.cfg.nv.toNat 0 pzero (s.sampleReady x) := by
  have hrec := (h.recorded x).inBounds
  have hready := h.sampleReady x
  rw [sampleStep_apply h, engProcess_apply hrec.running (by rw [hrec.cfg]; exact hrec.ctWr) (hrec.hasVoice hrec.rr),
    h.cfg, ← hready.cfg]
  rfl

theorem loadCell_inBuf {n : Nat} (hn : n < c.block.toNat) : loadCell .inBuf n s = .ok (s.peek .inBuf n) s :=
  loadCell_of_lt (by rw [h.inBounds.spaceSize]; exact hn)

/-- Every voice plays: the mix goes to the output block. -/
theorem blockSample_of_plays {n : Nat} (hn : n < c.block.toNat)
    (hplay : ∀ v, v < c.nv.toNat → (s.blockReady n).voicePlays v) : blockSample n s = .ok () (s.afterSample n) := by
  have hready : Sound c (s.blockReady n) := h.sampleReady _
  rw [← h.cfg] at hplay
  have hmix : sampleStep (s.peek .inBuf n) s
      = .ok ((s.blockReady n).mixOf s.cfg.nv.toNat) ((s.blockReady n).advancedTo s.cfg.nv.toNat) :=
    (sampleStep_eq_mix h _).trans (mixVoices_of_play hready.running _ hplay)
  unfold blockSample
  rw [M.bind_of_ok (loadCell_inBuf h hn), M.bind_of_ok hmix]
  refine storeCell_of_lt ?_
  rw [((hready.advancedTo (by rw [h.cfg])).inBounds).spaceSize]
  exact hn

/-- The voices before `w` play, and voice `w` raises a fault: the sample ends there. -/
theorem blockSample_of_raised {n w : Nat} (hnone : s.fault = 0) (hn : n < c.block.toNat) (hw : w < c.nv.toNat)
    (hplay : ∀ v, v < w → (s.blockReady n).voicePlays v) {f : FaultCause}
    (hraise : voiceNext w ((s.blockReady n).advancedTo w)
      = .error .raised (((s.blockReady n).advancedTo w).recordFault f (u32 w))) :
    blockSample n s = .error .raised (((s.blockReady n).advancedTo w).setFault f.code (u32 w)) := by
  have hready : Sound c (s.blockReady n) := h.sampleReady _
  have hnone' : ((s.blockReady n).advancedTo w).fault = 0 := (State.sampleReady_fault h.memWf _).trans hnone
  unfold blockSample
  rw [M.bind_of_ok (loadCell_inBuf h hn), ← State.recordFault_of_none hnone']
  refine M.bind_of_error ((sampleStep_eq_mix h _).trans ?_)
  exact mixVoices_of_raise hready.running _ w (by rwa [h.cfg]) hplay hraise

/-! ## The block (R224) -/

/-- The loop goes as far as every voice plays. -/
theorem blockLoop_reaches {n : Nat} (hn : n ≤ c.block.toNat)
    (hplay : ∀ m, m < n → ∀ v, v < c.nv.toNat → ((s.afterSamples m).blockReady m).voicePlays v) :
    forFrom c.block.toNat 0 blockSample s = forFrom (c.block.toNat - n) n blockSample (s.afterSamples n) := by
  induction n with
  | zero => rfl
  | succ n ih =>
    rw [ih (by omega) fun m hm => hplay m (by omega), show c.block.toNat - n = c.block.toNat - (n + 1) + 1 by omega,
      forFrom_succ, M.bind_of_ok (blockSample_of_plays (h.afterSamples (by omega)) (by omega) (hplay n (by omega)))]
    rfl

theorem State.afterSamples_ctrl {n : Nat} (hn : n ≤ c.block.toNat) : (s.afterSamples n).ctrl = s.ctrl := by
  induction n with
  | zero => rfl
  | succ n ih => exact (State.sampleReady_ctrl (h.afterSamples (by omega)).memWf _).trans (ih (by omega))

theorem State.afterSamples_fault {n : Nat} (hn : n ≤ c.block.toNat) : (s.afterSamples n).fault = s.fault := by
  induction n with
  | zero => rfl
  | succ n ih => exact (State.sampleReady_fault (h.afterSamples (by omega)).memWf _).trans (ih (by omega))

end

theorem State.peek_afterSamples_inBuf (s : State) (n i : Nat) : (s.afterSamples n).peek .inBuf i = s.peek .inBuf i := by
  induction n with
  | zero => rfl
  | succ n ih =>
    rw [State.afterSamples_succ, State.afterSample, State.peek_poke_ne _ _ (.inl (by decide))]
    exact (State.peek_sampleReady _ _ (by decide) (by decide) (by decide) i).trans ih

/-! ## The command (R224, R226) -/

theorem controlPoll_apply (s : State) : controlPoll s = .ok ⟨⟩ (s.setCtrl s.ctrl.polled) := rfl

section
variable {s t : State} (hs : s.ready)
include hs

theorem exec_pipeBlk_of_ready : exec .pipeBlk s = outcomeOf
    (controlPoll >>= fun _ => forFrom s.cfg.block.toNat 0 blockSample >>= fun _ => pure []) s := by
  have hexec : exec .pipeBlk s = execPipeBlk s := rfl
  rw [hexec, execPipeBlk, workCommand_of_ready hs]
  exact outcomeOf_congr rfl

theorem exec_pipeBlk_of_ok (h : forFrom s.cfg.block.toNat 0 blockSample (s.setCtrl s.ctrl.polled) = .ok () t) :
    exec .pipeBlk s = .next (t.respond .ok []) := by
  rw [exec_pipeBlk_of_ready hs]
  unfold outcomeOf
  rw [M.bind_of_ok (controlPoll_apply s), M.bind_of_ok h]
  rfl

theorem exec_pipeBlk_of_raised
    (h : forFrom s.cfg.block.toNat 0 blockSample (s.setCtrl s.ctrl.polled) = .error .raised t) :
    exec .pipeBlk s = .next (t.respond .fault []) := by
  rw [exec_pipeBlk_of_ready hs]
  unfold outcomeOf
  rw [M.bind_of_ok (controlPoll_apply s), M.bind_of_error h]

end

/-- The samples before `n` play, and at sample `n` the voices before `w`; voice `w` raises a fault, which is the
fault of the command (R224). -/
theorem exec_pipeBlk_of_voice {s u : State} {n w : Nat} (hinv : Inv s) (hs : s.ready)
    (hu : u = s.setCtrl s.ctrl.polled) (hn : n < s.cfg.block.toNat)
    (hbefore : ∀ m, m < n → ∀ v, v < s.cfg.nv.toNat → ((u.afterSamples m).blockReady m).voicePlays v)
    (hw : w < s.cfg.nv.toNat) (hplay : ∀ v, v < w → ((u.afterSamples n).blockReady n).voicePlays v) {f : FaultCause}
    (hraise : voiceNext w (((u.afterSamples n).blockReady n).advancedTo w)
      = .error .raised ((((u.afterSamples n).blockReady n).advancedTo w).recordFault f (u32 w))) :
    exec .pipeBlk s
      = .next (((((u.afterSamples n).blockReady n).advancedTo w).setFault f.code (u32 w)).respond .fault []) := by
  subst hu
  have hsound := (Sound.of_inv hinv rfl hs.1).setCtrl s.ctrl.polled
  refine exec_pipeBlk_of_raised hs ?_
  rw [blockLoop_reaches hsound hn.le hbefore, show s.cfg.block.toNat - n = s.cfg.block.toNat - (n + 1) + 1 by omega,
    forFrom_succ]
  refine M.bind_of_error (blockSample_of_raised (hsound.afterSamples hn.le) ?_ hn hw hplay hraise)
  exact (State.afterSamples_fault hsound hn.le).trans hs.2

end Sys2Proof.Machine

open Sys2Proof Sys2Proof.Machine

/-- Settles O50: the loop goes to the end of the block, or to the first voice that cannot play. -/
theorem blockProcessed : Obligations.BlockProcessed := by
  intro s hinv hs cur u r plays
  have hsound := (Sound.of_inv hinv rfl hs.1).setCtrl s.ctrl.polled
  refine ⟨fun hplay => ⟨?_, State.afterSamples_ctrl hsound le_rfl, fun i => ?_⟩,
    fun n w hn hbefore hw hplay => ⟨fun hready => ?_, fun hwave hrate hpos => ?_, fun i => ?_⟩⟩
  · refine exec_pipeBlk_of_ok hs ?_
    rw [blockLoop_reaches hsound le_rfl hplay, Nat.sub_self]
    rfl
  · exact State.peek_afterSamples_inBuf _ _ i
  all_goals
    have hhas : ((r n).advancedTo w).hasVoice w = true :=
      ((hsound.afterSamples hn.le).sampleReady _).inBounds.hasVoice hw
    have hvoice : ((r n).advancedTo w).voice w = (r n).voice w := State.voice_advancedTo_ge _ le_rfl
  · rw [← hvoice] at hready
    exact exec_pipeBlk_of_voice hinv hs rfl hn hbefore hw hplay (voiceNext_notReady hhas hready)
  · rw [← hvoice] at hwave hrate hpos
    exact exec_pipeBlk_of_voice hinv hs rfl hn hbefore hw hplay (voiceNext_index hhas hwave hrate hpos)
  · exact State.peek_sampleReady _ _ (by decide) (by decide) (by decide) i
end

section
/-! SUPPORT. The fault lock: a block with a fault recorded does no work and keeps the fault (spec/60_exceptions.md
R252). -/

namespace Sys2Proof.Machine

/-! ## Commands (30_encoding.md R92, check 2) -/

/-- A command that the fault lock stops is refused with ST_ERR_FAULTED while a fault is recorded. -/
theorem command_of_fault {need : RunNeed} {body : M (List Word)} {s : State} (h : s.fault ≠ 0) :
    command false need body s = .next (s.respond .errFaulted []) := by
  have hlocked : (false || s.fault == 0) = false := beq_false_of_ne h
  have hrefused : admission false need s = .error (.refused .errFaulted) s := by
    rcases admit_cases false need s with ⟨-, ha⟩ | ⟨hopen, -⟩ | ⟨hopen, -⟩
    case inl => exact ha
    all_goals cases hlocked.symm.trans hopen
  unfold command outcomeOf
  rw [M.bind_of_error hrefused]

/-- Every command but the three that pass the lock is one that it stops. -/
theorem exec_of_fault {i : Instr} {s : State} (h : s.fault ≠ 0) (hnop : i ≠ .nop) (hrdreg : ∀ a, i ≠ .rdreg a)
    (hrdmem : ∀ sp k, i ≠ .rdmem sp k) : exec i s = .next (s.respond .errFaulted []) := by
  cases i with
  | nop => exact absurd rfl hnop
  | rdreg a => exact absurd rfl (hrdreg a)
  | rdmem sp k => exact absurd rfl (hrdmem sp k)
  | init => exact command_of_fault (need := .stopped) h
  | wrreg a w => exact command_of_fault (need := .either) h
  | _ => exact command_of_fault (need := .running) h

/-! ## The fault registers (10_state.md R44) -/

/-- `t` has the fault registers of `s`. -/
def State.sameFault (s t : State) : Prop := t.fault = s.fault ∧ t.faultInfo = s.faultInfo

/-- A command whose pseudocode keeps every property of the state keeps the fault registers. -/
theorem command_sameFault {lock : Bool} {need : RunNeed} {body : M (List Word)} {s t : State}
    (h : command lock need body s = .next t) (hbody : Keeps s.sameFault body) : s.sameFault t :=
  command_leaves (P := s.sameFault) ⟨rfl, rfl⟩ (fun _ _ _ hu => hu) (fun _ => hbody.leaves ⟨rfl, rfl⟩) h

/-- The three commands that pass the lock only read; the others are refused. -/
theorem exec_sameFault {i : Instr} {s t : State} (hfault : s.fault ≠ 0) (h : exec i s = .next t) : s.sameFault t := by
  have hrefused : exec i s = .next (s.respond .errFaulted []) → s.sameFault t := fun he => by
    cases h.symm.trans he
    exact ⟨rfl, rfl⟩
  cases i with
  | nop => exact command_sameFault (lock := true) (need := .either) (body := pure []) h (keeps_pure _ _)
  | rdreg a =>
    exact command_sameFault h (keeps_bind (keeps_regOperand _ a) fun _ => keeps_bind (keeps_get _) fun _ =>
      keeps_pure _ _)
  | rdmem sp k =>
    exact command_sameFault h (keeps_bind (keeps_cellOperand _ sp k) fun _ => keeps_bind (keeps_loadCell _ _ _)
      fun _ => keeps_pure _ _)
  | _ => exact hrefused (exec_of_fault hfault nofun nofun nofun)

/-! ## Turns -/

theorem State.agentIdle_of_fault {s : State} (h : s.fault ≠ 0) : s.agentIdle :=
  ⟨State.runEnabled_of_fault h, Bool.eq_false_iff.2 fun htake => h (State.fault_of_takeEnabled htake)⟩

/-- With no step enabled the agent's turn does nothing (45_pipeline.md R229, R230). -/
theorem analyzerTurn_of_idle {s : State} (h : s.agentIdle) : analyzerTurn s = .next s := by
  obtain ⟨hrun, htake⟩ := h
  simp [analyzerTurn, hrun, htake]

theorem analyzerTurn_sameFault {s t : State} (hfault : s.fault ≠ 0) (h : analyzerTurn s = .next t) : s.sameFault t := by
  cases (analyzerTurn_of_idle (State.agentIdle_of_fault hfault)).symm.trans h
  exact ⟨rfl, rfl⟩

theorem commandTurn_sameFault {s t : State} (hfault : s.fault ≠ 0) (h : commandTurn s = .next t) : s.sameFault t := by
  unfold commandTurn at h
  cases hdec : decode s.port with
  | command i rest => rw [hdec] at h; exact exec_sameFault (s := s.setPort rest) hfault h
  | illegal why rest => rw [hdec] at h; cases h; exact ⟨rfl, rfl⟩
  | incomplete => rw [hdec] at h; exact analyzerTurn_sameFault hfault h

/-- A turn that is no reset is one of the two agents' (00_scope.md R17). -/
theorem step_of_not_resetNext {s : State} (h : ¬ s.resetNext) :
    step s = commandTurn (s.setSched s.sched.tail) ∨ step s = analyzerTurn (s.endTurn s.port) := by
  cases hsched : s.sched with
  | nil => rw [← hsched]; exact .inl (step_of_commandNext (.inl hsched))
  | cons turn rest =>
    have hhead : s.sched.head? = some turn := by rw [hsched]; rfl
    rw [← hsched]
    cases turn with
    | command => exact .inl (step_of_commandNext (.inr hhead))
    | analyzer => exact .inr (step_of_analyzerNext (.inl hhead))
    | reset => exact absurd (.inl hhead) h
    | resetInCommand => exact absurd (.inr hhead) h

theorem step_sameFault {s t : State} (hfault : s.fault ≠ 0) (hreset : ¬ s.resetNext) (h : step s = .next t) :
    s.sameFault t := by
  rcases step_of_not_resetNext hreset with hturn | hturn
  · exact commandTurn_sameFault (s := s.setSched s.sched.tail) hfault (hturn.symm.trans h)
  · exact analyzerTurn_sameFault (s := s.endTurn s.port) hfault (hturn.symm.trans h)

end Sys2Proof.Machine

open Sys2Proof Sys2Proof.Machine

/-- Settles O9: the lock refuses what is not a read, the agent has no step, and so no turn but reset touches the fault
registers. -/
theorem faultedBlockDoesNoWork : Obligations.FaultedBlockDoesNoWork := by
  intro s hfault
  refine ⟨fun i hnop hrdreg hrdmem => exec_of_fault hfault hnop hrdreg hrdmem, State.agentIdle_of_fault hfault,
    fun t hreset hstep => step_sameFault hfault hreset hstep, fun hended => ?_⟩
  obtain ⟨-, hnone⟩ := hended
  exact hfault hnone
end

section
/-! SUPPORT. A logic for the faults that pseudocode can raise (spec/60_exceptions.md R250, column raised by). -/

namespace Sys2Proof.Machine

variable {α β : Type}

/-- What a stop leaves behind in the state `t`: a raise records one of the causes `cs`, and a refusal has a
status of R85 that refuses. -/
def Stop.raisesIn (cs : List FaultCause) (t : State) : Stop → Prop
  | .raised => ∃ c ∈ cs, t.fault = c.code
  | .refused st => st.isRefusal = true
  | .fault _ => True

/-- Run with no fault recorded, the pseudocode ends normally with none recorded, or it stops, with one of the causes
`cs` recorded where the stop is a raise. -/
def Raises (cs : List FaultCause) (x : M α) : Prop :=
  ∀ s, s.fault = 0 →
    (∃ a t, x s = .ok a t ∧ t.fault = 0) ∨ (∃ e t, x s = .error e t ∧ e.raisesIn cs t)

@[simp] theorem State.setEnv_fault (s : State) (u : Nat) (x : Env) : (s.setEnv u x).fault = s.fault := by
  unfold State.setEnv
  split <;> rfl

@[simp] theorem State.putReg_fault (s : State) (r : Reg) (w : Word) : (s.putReg r w).fault = s.fault := by
  cases r <;> rfl

namespace Raises
variable {cs : List FaultCause} {x y : M α}

/-- Pseudocode that always ends normally. -/
theorem of_ok {g : State → α} {f : State → State} (hx : ∀ s, x s = .ok (g s) (f s))
    (hf : ∀ s, (f s).fault = s.fault) : Raises cs x :=
  fun s hs => .inl ⟨_, _, hx s, (hf s).trans hs⟩

theorem pure (a : α) : Raises cs (Pure.pure a : M α) := of_ok (fun _ => rfl) fun _ => rfl

theorem refuse {st : Status} (h : st.isRefusal = true) : Raises cs (refuse st : M α) := fun s _ => .inr ⟨_, s, rfl, h⟩

/-- With no fault recorded a raise records its own cause (10_state.md R44). -/
theorem raise {c : FaultCause} (h : c ∈ cs) (i : Word) : Raises cs (raiseFault c i : M α) :=
  fun s hs => .inr ⟨_, _, rfl, c, h, by rw [State.recordFault_of_none hs, State.setFault_fault]⟩

theorem bind {f : α → M β} (hx : Raises cs x) (hf : ∀ a, Raises cs (f a)) : Raises cs (x >>= f) := by
  intro s hs
  rcases hx s hs with ⟨a, t, h, ht⟩ | ⟨e, t, h, he⟩
  · rw [M.bind_of_ok h]
    exact hf a t ht
  · exact .inr ⟨e, t, M.bind_of_error h, he⟩

/-- Sequencing after a read of the state, which has no fault recorded. -/
theorem get {f : State → M β} (hf : ∀ s, s.fault = 0 → Raises cs (f s)) :
    Raises cs ((MonadState.get : M State) >>= f) :=
  fun s hs => hf s hs s hs

/-- Sequencing after a write of a state with no fault recorded. -/
theorem set {u : State} {f : PUnit → M β} (hu : u.fault = 0) (hf : Raises cs (f ⟨⟩)) :
    Raises cs ((MonadStateOf.set u : M PUnit) >>= f) :=
  fun _ _ => hf u hu

theorem modify {f : State → State} (hf : ∀ s, (f s).fault = s.fault) : Raises cs (modify f : M PUnit) :=
  of_ok (fun _ => rfl) hf

theorem ite {c : Prop} [Decidable c] (hx : Raises cs x) (hy : Raises cs y) : Raises cs (if c then x else y) := by
  split
  · exact hx
  · exact hy

/-- A part done under a condition, then the rest. -/
theorem ifThen {c : Prop} [Decidable c] {x : M Unit} {f : Unit → M β} (hx : Raises cs x) (hf : Raises cs (f ())) :
    Raises cs (if c then x >>= f else f ()) :=
  ite (hx.bind fun _ => hf) hf

/-! ## Primitives and loops -/

theorem require (b : Bool) {st : Status} (h : st.isRefusal = true) : Raises cs (require b st) := by
  cases b
  · exact refuse h
  · exact pure ()

theorem loadCell (sp : Space) (i : Nat) : Raises cs (loadCell sp i) := by
  intro s hs
  rcases loadCell_cases sp i s with ⟨-, h⟩ | ⟨-, h⟩
  · exact .inl ⟨_, s, h, hs⟩
  · exact .inr ⟨_, s, h, trivial⟩

theorem storeCell (sp : Space) (i : Nat) (w : Word) : Raises cs (storeCell sp i w) := by
  intro s hs
  rcases storeCell_cases sp i w s with ⟨-, h⟩ | ⟨-, h⟩
  · exact .inl ⟨_, _, h, hs⟩
  · exact .inr ⟨_, s, h, trivial⟩

theorem voiceAt (v : Nat) : Raises cs (voiceAt v) := by
  intro s hs
  rcases voiceAt_cases v s with ⟨-, h⟩ | ⟨-, h⟩
  · exact .inl ⟨_, s, h, hs⟩
  · exact .inr ⟨_, s, h, trivial⟩

theorem putVoice (v : Nat) (x : Voice) : Raises cs (putVoice v x) := by
  intro s hs
  rcases putVoice_cases v x s with ⟨-, h⟩ | ⟨-, h⟩
  · exact .inl ⟨_, _, h, hs⟩
  · exact .inr ⟨_, s, h, trivial⟩

theorem forFrom {body : Nat → M Unit} (h : ∀ i, Raises cs (body i)) (n a : Nat) : Raises cs (forFrom n a body) := by
  induction n generalizing a with
  | zero => exact pure ()
  | succ n ih => exact (h a).bind fun _ => ih (a + 1)

/-! ## Operands (10_state.md R48, 20_memory.md R61, 44_voice_engine.md R191) -/

theorem requireVoice (v : Nat) : Raises cs (requireVoice v) := get fun _ _ => require _ rfl

theorem regOperand (a : Nat) : Raises cs (regOperand a) := by
  unfold Machine.regOperand
  cases regOf a with
  | none => exact refuse rfl
  | some r => exact pure r

theorem cellOperand (space : Nat) (index : Word) : Raises cs (cellOperand space index) := by
  intro s hs
  unfold Machine.cellOperand
  cases spaceOf space with
  | none => exact .inr ⟨_, s, rfl, rfl⟩
  | some sp =>
    by_cases hi : index.toNat < s.spaceSize sp
    · exact .inl ⟨_, s, if_pos hi, hs⟩
    · exact .inr ⟨.refused .errOperand, s, if_neg hi, rfl⟩

end Raises

end Sys2Proof.Machine
end

section
/-! SUPPORT. The faults that each unit can raise (spec/60_exceptions.md R250). -/

namespace Sys2Proof.Machine

/-- The causes of a fault that playing a voice can raise (44_voice_engine.md R193). -/
def voiceCauses : List FaultCause := [.voiceNotReady, .voiceIndex]

namespace Raises
variable {cs : List FaultCause}

/-! ## Filters and tracker (41_filters.md, 42_cycle.md): none -/

theorem envProcess (u : Nat) (x : F32) : Raises cs (envProcess u x) :=
  of_ok (envProcess_apply u x) fun s => s.setEnv_fault u _

theorem lpfProcess (x : F32) : Raises cs (lpfProcess x) := of_ok (lpfProcess_apply x) fun _ => rfl

theorem zdProcess (x : F32) : Raises cs (zdProcess x) := of_ok (zdProcess_apply x) fun _ => rfl

theorem cdProcess (x : F32) : Raises cs (cdProcess x) := of_ok (cdProcess_apply x) fun s => s.detect_fault x

theorem ctProcess (x : F32) : Raises cs (ctProcess x) := by
  intro s hs
  rcases ctProcess_cases x s with h | ⟨_, h⟩
  · exact .inl ⟨_, _, h, (s.track_fault x).trans hs⟩
  · exact .inr ⟨_, s, h, trivial⟩

/-! ## Voices and engine (44_voice_engine.md): the two voice faults -/

theorem voiceSetRate (v : Nat) (p : Word) : Raises cs (voiceSetRate v p) :=
  (voiceAt v).bind fun _ => putVoice v _

theorem voiceSetWaveform (v : Nat) (len : Word) : Raises cs (voiceSetWaveform v len) := by
  refine (voiceAt v).bind fun x => (forFrom (fun i => ?_) _ 0).bind fun _ => putVoice v _
  exact (loadCell _ _).bind fun _ => get fun _ _ => storeCell _ _ _

theorem voiceNext (v : Nat) : Raises voiceCauses (voiceNext v) := by
  refine (voiceAt v).bind fun x => .ifThen (.raise (by decide) _) ?_
  cases floorU x.position x.actLen with
  | none => exact .raise (by decide) _
  | some i0 =>
    refine .get fun _ _ => (loadCell _ _).bind fun _ => (loadCell _ _).bind fun _ => ?_
    exact (putVoice v _).bind fun _ => .pure _

theorem mixVoices (amp : F32) (n i : Nat) (acc : F32) : Raises voiceCauses (mixVoices amp n i acc) := by
  induction n generalizing i acc with
  | zero => exact .pure acc
  | succ n ih => exact (voiceNext i).bind fun _ => ih (i + 1) _

theorem assignPeriod (c : Cycle) : Raises cs (assignPeriod c) :=
  .ite (.get fun _ _ => (voiceSetRate _ _).bind fun _ => .modify fun _ => rfl) (.pure ())

theorem engProcess (x : F32) : Raises voiceCauses (engProcess x) :=
  (ctProcess x).bind fun c => (assignPeriod c).bind fun _ => .get fun _ _ => mixVoices _ _ 0 _

/-! ## Pipeline (45_pipeline.md): those of the engine -/

theorem historyWrite (x : F32) : Raises cs (historyWrite x) :=
  .get fun _ _ => (storeCell _ _ _).bind fun _ => .modify fun _ => rfl

theorem publishWindow : Raises cs publishWindow := by
  refine .get fun _ _ => .ite (.bind (forFrom (fun i => ?_) _ 0) fun _ => .modify fun _ => rfl) (.pure ())
  exact (loadCell _ _).bind fun _ => storeCell _ _ _

theorem sampleStep (x : F32) : Raises voiceCauses (sampleStep x) :=
  (historyWrite x).bind fun _ => .get fun s hs =>
    .ite (.set ((s.setPipe_fault _).trans hs) (publishWindow.bind fun _ => engProcess x)) (engProcess x)

theorem blockSample (i : Nat) : Raises voiceCauses (blockSample i) :=
  (loadCell _ _).bind fun x => (sampleStep x).bind fun _ => storeCell _ _ _

/-! ## Analyzer (43_analyzer.md): no convergence -/

theorem anLoad : Raises cs anLoad := .get fun _ _ => forFrom (fun _ => (loadCell _ _).bind fun _ => storeCell _ _ _) _ 0

theorem anWindow : Raises cs anWindow :=
  .get fun _ _ => forFrom (fun _ => (loadCell _ _).bind fun _ => (loadCell _ _).bind fun _ =>
    (storeCell _ _ _).bind fun _ => storeCell _ _ _) _ 0

theorem swapCells (sp : Space) (i j : Nat) : Raises cs (swapCells sp i j) :=
  (loadCell _ _).bind fun _ => (loadCell _ _).bind fun _ => (storeCell _ _ _).bind fun _ => storeCell _ _ _

theorem anPermute (n bits : Nat) : Raises cs (anPermute n bits) :=
  forFrom (fun _ => .ite ((swapCells _ _ _).bind fun _ => swapCells _ _ _) (.pure ())) n 0

theorem butterfly (a b t : Nat) : Raises cs (butterfly a b t) := by
  refine (loadCell _ _).bind fun _ => (loadCell _ _).bind fun _ => (loadCell _ _).bind fun _ => ?_
  refine (loadCell _ _).bind fun _ => (loadCell _ _).bind fun _ => (loadCell _ _).bind fun _ => ?_
  exact (storeCell _ _ _).bind fun _ => (storeCell _ _ _).bind fun _ => (storeCell _ _ _).bind fun _ => storeCell _ _ _

theorem anFft : Raises cs anFft :=
  .get fun _ _ => (anPermute _ _).bind fun _ =>
    forFrom (fun _ => forFrom (fun _ => forFrom (fun _ => butterfly _ _ _) _ 0) _ 0) _ 1

theorem binMagnitude (b : Nat) : Raises cs (binMagnitude b) :=
  (loadCell _ _).bind fun _ => (loadCell _ _).bind fun _ => .pure _

theorem peakSearch (n b k : Nat) (best : F32) : Raises cs (peakSearch n b k best) := by
  induction n generalizing b k best with
  | zero => exact .pure k
  | succ n ih => exact (binMagnitude b).bind fun _ => .ite (ih _ _ _) (ih _ _ _)

theorem anPeak : Raises cs anPeak := by
  refine .get fun _ _ => (binMagnitude 0).bind fun _ => (peakSearch _ _ _ _).bind fun _ => ?_
  refine (loadCell _ _).bind fun _ => .bind (forFrom (fun _ => ?_) _ 0) fun _ => ?_
  · exact (loadCell _ _).bind fun _ => (loadCell _ _).bind fun _ => storeCell _ _ _
  · exact .bind (.modify fun _ => rfl) fun _ => (loadCell _ _).bind fun _ => .pure _

theorem anCoarse (k : Nat) : Raises cs (anCoarse k) := of_ok (anCoarse_apply k) fun s => s.setAn_fault _

theorem anRefine (h : .analyzerNoConverge ∈ cs) (pk : Peak) (fEst : F32) : Raises cs (anRefine pk fEst) := by
  refine .get fun s _ => ?_
  cases refined s.cfg pk fEst with
  | none => exact .raise h _
  | some f => exact .pure f

theorem anRun (h : .analyzerNoConverge ∈ cs) : Raises cs anRun :=
  anWindow.bind fun _ => anFft.bind fun _ => anPeak.bind fun _ => (anCoarse _).bind fun _ => anRefine h _ _

end Raises

end Sys2Proof.Machine
end

section
/-! SUPPORT. The faults that each command can raise (spec/60_exceptions.md R250, R251). -/

namespace Sys2Proof.Machine

/-- The column raised by of R250, read by command. -/
def faultCauses : Instr → List FaultCause
  | .init => [.arenaExhausted, .configInvalid]
  | .anProc _ => [.windowLength, .analyzerNoConverge]
  | .vNext _ | .engProc _ | .pipeSmp _ | .pipeBlk => voiceCauses
  | .nop | .rdreg _ | .wrreg _ _ | .rdmem _ _ | .wrmem _ _ _ | .envProc _ _ | .lpfProc _ | .zdProc _ | .cdProc _
  | .ctProc _ | .vSetRate _ _ | .vSetWave _ _ | .ctick _ _ _ _ | .fpoll => []

theorem Raises.admission {cs : List FaultCause} (lock : Bool) (need : RunNeed) : Raises cs (admission lock need) :=
  .get fun _ _ => (Raises.require _ rfl).bind fun _ => .require _ rfl

/-- The command that took `s` to `t` recorded one of the causes `cs` and was answered ST_FAULT, or neither. -/
def State.faultedBy (s t : State) (cs : List FaultCause) : Prop :=
  (s.answered t .fault [] ∧ ∃ c ∈ cs, t.fault = c.code) ∨ (¬ s.answered t .fault [] ∧ t.fault = 0)

theorem State.not_answered_fault {s u : State} {st : Status} {rs : List Word} (h : st ≠ .fault) :
    ¬ s.answered (u.respond st rs) .fault [] := fun ha => h (State.answered_respond_iff.1 ha).2.1

/-- A raise is answered ST_FAULT, a normal end ST_OK, and a refusal leaves the state as it was (R14). -/
theorem command_faultedBy {lock : Bool} {need : RunNeed} {body : M (List Word)} {s t : State} {n : Nat}
    {cs : List FaultCause} (hnone : s.fault = 0) (hresponded : s.respondedWith t n)
    (h : command lock need body s = .next t) (hbody : Raises cs body) : s.faultedBy t cs := by
  rcases ((Raises.admission lock need).bind fun _ => hbody) s hnone with ⟨rs, u, hrun, hu⟩ | ⟨e, u, hrun, he⟩
  all_goals unfold command outcomeOf at h; rw [hrun] at h
  · cases h
    exact .inr ⟨State.not_answered_fault nofun, hu⟩
  · cases e with
    | raised =>
      cases h
      obtain ⟨st, rs, hanswered, -⟩ := hresponded
      obtain ⟨hresp, -⟩ := State.answered_respond_iff.1 hanswered
      exact .inl ⟨State.answered_respond_iff.2 ⟨hresp, rfl, rfl⟩, he⟩
    | refused st =>
      cases h
      exact .inr ⟨State.not_answered_fault (by rintro rfl; cases he), hnone⟩
    | fault f => cases h

/-- Every command raises the causes of its row of R250 alone. -/
theorem exec_faultedBy {i : Instr} {s t : State} (hnone : s.fault = 0) (h : exec i s = .next t) :
    s.faultedBy t (faultCauses i) := by
  have hresp := exec_responded h
  cases i with
  | nop => exact command_faultedBy (lock := true) (need := .either) (body := pure []) hnone hresp h (.pure _)
  | init =>
    refine command_faultedBy hnone hresp h (.get fun u hu => ?_)
    cases firstFailing 1 (configChecks u.cfg) with
    | some n => exact .raise (.tail _ (.head _)) _
    | none => exact .ite (.raise (.head _) _) (.set hu (.pure _))
  | rdreg a =>
    exact command_faultedBy hnone hresp h ((Raises.regOperand a).bind fun _ => .get fun _ _ => .pure _)
  | wrreg a w =>
    refine command_faultedBy hnone hresp h ((Raises.regOperand a).bind fun r => .get fun u hu => ?_)
    refine (Raises.require _ rfl).bind fun _ => (Raises.require _ rfl).bind fun _ => ?_
    exact (Raises.require _ rfl).bind fun _ => .set ((u.putReg_fault r w).trans hu) (.pure _)
  | rdmem sp k =>
    refine command_faultedBy hnone hresp h ?_
    exact (Raises.cellOperand sp k).bind fun _ => (Raises.loadCell _ _).bind fun _ => .pure _
  | wrmem sp k w =>
    refine command_faultedBy hnone hresp h ((Raises.cellOperand sp k).bind fun _ => .get fun _ _ => ?_)
    exact (Raises.require _ rfl).bind fun _ => (Raises.storeCell _ _ _).bind fun _ => .pure _
  | envProc u x =>
    refine command_faultedBy hnone hresp h ?_
    exact (Raises.require _ rfl).bind fun _ => (Raises.envProcess u x).bind fun _ => .pure _
  | lpfProc x => exact command_faultedBy hnone hresp h ((Raises.lpfProcess x).bind fun _ => .pure _)
  | zdProc x => exact command_faultedBy hnone hresp h ((Raises.zdProcess x).bind fun _ => .pure _)
  | cdProc x => exact command_faultedBy hnone hresp h ((Raises.cdProcess x).bind fun _ => .pure _)
  | ctProc x => exact command_faultedBy hnone hresp h ((Raises.ctProcess x).bind fun _ => .pure _)
  | anProc len =>
    refine command_faultedBy hnone hresp h (.get fun _ _ => (Raises.require _ rfl).bind fun _ => ?_)
    refine .ifThen (.raise (.head _) _) ?_
    exact Raises.anLoad.bind fun _ => (Raises.anRun (.tail _ (.head _))).bind fun _ => .pure _
  | vSetRate v p =>
    refine command_faultedBy hnone hresp h ((Raises.requireVoice v).bind fun _ => ?_)
    exact (Raises.require _ rfl).bind fun _ => (Raises.voiceSetRate v p).bind fun _ => .pure _
  | vSetWave v len =>
    refine command_faultedBy hnone hresp h ((Raises.requireVoice v).bind fun _ => .get fun _ _ => ?_)
    exact (Raises.require _ rfl).bind fun _ => (Raises.voiceSetWaveform v len).bind fun _ => .pure _
  | vNext v =>
    refine command_faultedBy hnone hresp h ?_
    exact (Raises.requireVoice v).bind fun _ => (Raises.voiceNext v).bind fun _ => .pure _
  | engProc x => exact command_faultedBy hnone hresp h ((Raises.engProcess x).bind fun _ => .pure _)
  | pipeSmp x => exact command_faultedBy hnone hresp h ((Raises.sampleStep x).bind fun _ => .pure _)
  | pipeBlk =>
    refine command_faultedBy hnone hresp h (.bind (.modify fun _ => rfl) fun _ => .get fun _ _ => ?_)
    exact (Raises.forFrom Raises.blockSample _ 0).bind fun _ => .pure _
  | ctick c0 c1 c2 c3 =>
    exact command_faultedBy hnone hresp h (.bind (.modify fun _ => rfl) fun _ => .pure _)
  | fpoll =>
    refine command_faultedBy hnone hresp h (.get fun u hu => .ite (.set ?_ (.pure _)) (.pure _))
    exact (u.setFreq_fault _).trans hu

/-- The codes of R250 for the causes that a command can raise. -/
theorem faultCauses_code {i : Instr} {c : FaultCause} (h : c ∈ faultCauses i) :
    ((c.code = 1 ∨ c.code = 2) ∧ i = .init)
      ∨ ((c.code = 3 ∨ c.code = 6) ∧ ∃ len, i = .anProc len)
      ∨ ((c.code = 4 ∨ c.code = 5)
        ∧ ((∃ v, i = .vNext v) ∨ (∃ x, i = .engProc x) ∨ (∃ x, i = .pipeSmp x) ∨ i = .pipeBlk)) := by
  have hinit : c ∈ [.arenaExhausted, .configInvalid] → c.code = 1 ∨ c.code = 2 := by cases c <;> decide
  have hanalyzer : c ∈ [.windowLength, .analyzerNoConverge] → c.code = 3 ∨ c.code = 6 := by cases c <;> decide
  have hvoice : c ∈ voiceCauses → c.code = 4 ∨ c.code = 5 := by cases c <;> decide
  cases i with
  | init => exact .inl ⟨hinit h, rfl⟩
  | anProc len => exact .inr (.inl ⟨hanalyzer h, len, rfl⟩)
  | vNext v => exact .inr (.inr ⟨hvoice h, .inl ⟨v, rfl⟩⟩)
  | engProc x => exact .inr (.inr ⟨hvoice h, .inr (.inl ⟨x, rfl⟩)⟩)
  | pipeSmp x => exact .inr (.inr ⟨hvoice h, .inr (.inr (.inl ⟨x, rfl⟩))⟩)
  | pipeBlk => exact .inr (.inr ⟨hvoice h, .inr (.inr (.inr rfl))⟩)
  | _ => cases h

end Sys2Proof.Machine

open Sys2Proof Sys2Proof.Machine

/-- Settles O11: a command that raises is answered ST_FAULT with a cause of its row recorded; any other leaves none. -/
theorem faultsByCommand : Obligations.FaultsByCommand := by
  intro i s t hnone hexec
  rcases exec_faultedBy hnone hexec with ⟨hanswered, c, hc, hcode⟩ | ⟨hanswered, hfault⟩
  · rw [hcode]
    exact ⟨iff_of_true c.code_ne_zero hanswered, fun _ => faultCauses_code hc⟩
  · exact ⟨iff_of_false (not_not.2 hfault) hanswered, fun hne => absurd hfault hne⟩
end

section
/-! SUPPORT. A running block keeps its configuration, and no turn but reset stops it (spec/70_reset_and_hazards.md
R283). -/

namespace Sys2Proof.Machine

/-- The block runs with the configuration `c`. -/
structure RunsWith (c : Cfg) (s : State) : Prop where
  running : s.running = true
  cfg : s.cfg = c

/-! ## Updates of a running block -/

@[simp] theorem State.setEnv_cfg (s : State) (u : Nat) (x : Env) : (s.setEnv u x).cfg = s.cfg := by
  unfold State.setEnv
  split <;> rfl

@[simp] theorem State.setEnv_running (s : State) (u : Nat) (x : Env) : (s.setEnv u x).running = s.running := by
  unfold State.setEnv
  split <;> rfl

@[simp] theorem State.putReg_running (s : State) (r : Reg) (w : Word) : (s.putReg r w).running = s.running := by
  cases r <;> rfl

/-- The registers that are not locked hold none of the configuration (10_state.md R40). -/
theorem State.putReg_cfg {r : Reg} (h : r.access ≠ .rwLock) (s : State) (w : Word) : (s.putReg r w).cfg = s.cfg := by
  cases r with
  | cfgFs | cfgBlock | cfgWin | cfgHop | cfgNv | cfgRing | cfgHist | cfgWt => exact absurd rfl h
  | _ => rfl

namespace RunsWith
variable {c : Cfg} {s t : State} (h : RunsWith c s)
include h

/-- An update of neither `RUNNING` nor the configuration. -/
theorem update (hrunning : t.running = s.running) (hcfg : t.cfg = s.cfg) : RunsWith c t :=
  ⟨hrunning.trans h.running, hcfg.trans h.cfg⟩

theorem recordFault (x : FaultCause) (i : Word) : RunsWith c (s.recordFault x i) :=
  h.update (s.recordFault_running x i) (s.recordFault_cfg x i)

theorem track (x : F32) : RunsWith c (s.track x).1 := h.update (s.track_running x) (s.track_cfg x)

theorem putReg {r : Reg} (hr : r.access ≠ .rwLock) (w : Word) : RunsWith c (s.putReg r w) :=
  h.update (s.putReg_running r w) (s.putReg_cfg hr w)

theorem published (f : F32) : RunsWith c (s.published f) := by
  unfold State.published
  split <;> exact h.update rfl rfl

/-- The sizes of the memories follow from the configuration (20_memory.md R61). -/
theorem spaceSize (sp : Space) : s.spaceSize sp = c.spaceSize sp := by rw [spaceSize_of_running h.running, h.cfg]

end RunsWith

/-! ## Units -/

section
variable (c : Cfg)

theorem RunsWith.engineKeeps : EngineKeeps (RunsWith c) where
  rate _ _ _ h := h.update rfl rfl
  advance _ _ h := h.update rfl rfl
  roundRobin _ _ h := h.update rfl rfl
  fault _ x i h := h.recordFault x i

theorem RunsWith.windowKeeps : WindowKeeps (RunsWith c) where
  counters _ _ h := h.update rfl rfl
  slot _ _ _ h := h.update rfl rfl
  flag _ _ h := h.update rfl rfl

theorem RunsWith.analyzerKeeps : AnalyzerKeeps (RunsWith c) where
  cell _ _ _ _ _ h := h.update rfl rfl
  registers _ _ h := h.update rfl rfl
  fault _ x i h := h.recordFault x i

theorem storeCell_runsWith (sp : Space) (i : Nat) (w : Word) : Keeps (RunsWith c) (storeCell sp i w) :=
  keeps_storeCell fun _ _ h => h.update rfl rfl

theorem envProcess_runsWith (u : Nat) (x : F32) : Keeps (RunsWith c) (envProcess u x) :=
  .of_leaves fun s h => .of_ok (envProcess_apply u x s) (h.update (s.setEnv_running u _) (s.setEnv_cfg u _))

theorem lpfProcess_runsWith (x : F32) : Keeps (RunsWith c) (lpfProcess x) :=
  .of_leaves fun s h => .of_ok (lpfProcess_apply x s) (h.update rfl rfl)

theorem zdProcess_runsWith (x : F32) : Keeps (RunsWith c) (zdProcess x) :=
  .of_leaves fun s h => .of_ok (zdProcess_apply x s) (h.update rfl rfl)

theorem cdProcess_runsWith (x : F32) : Keeps (RunsWith c) (cdProcess x) :=
  .of_leaves fun s h => .of_ok (cdProcess_apply x s) (h.update (s.detect_running x) (s.detect_cfg x))

theorem ctProcess_runsWith (x : F32) : Keeps (RunsWith c) (ctProcess x) := by
  refine .of_leaves fun s h => ?_
  rcases ctProcess_cases x s with hct | ⟨_, hct⟩
  · exact .of_ok hct (h.track x)
  · exact .of_error hct h

theorem voiceSetWaveform_runsWith (v : Nat) (len : Word) : Keeps (RunsWith c) (voiceSetWaveform v len) := by
  refine keeps_bind (keeps_voiceAt _ v) fun x => keeps_bind (keeps_forFrom (fun i => ?_) _ 0) fun _ => ?_
  · exact keeps_bind (keeps_loadCell _ _ _) fun _ => keeps_bind (keeps_get _) fun _ => storeCell_runsWith c _ _ _
  · exact keeps_putVoice fun _ _ h => h.update rfl rfl

theorem engProcess_runsWith (x : F32) : Keeps (RunsWith c) (engProcess x) :=
  .of_leaves fun _ h => (RunsWith.engineKeeps c).engProcess h (h.track x)

theorem sampleStep_runsWith (x : F32) : Keeps (RunsWith c) (sampleStep x) :=
  .of_leaves fun _ h => sampleStep_leaves (RunsWith.windowKeeps c) (RunsWith.engineKeeps c) (fun _ ht => ht)
    (fun _ ht => ht.track x) h (h.update rfl rfl)

theorem blockSample_runsWith (i : Nat) : Keeps (RunsWith c) (blockSample i) :=
  blockSample_leaves (RunsWith.windowKeeps c) (RunsWith.engineKeeps c) (fun _ x h => h.track x)
    (fun _ _ _ h => h.update rfl rfl) (fun _ _ _ h => h.update rfl rfl) i

theorem anTake_runsWith : Keeps (RunsWith c) anTake :=
  keeps_bind (RunsWith.analyzerKeeps c).anLoad fun _ => keeps_modify fun _ h => h.update rfl rfl

theorem anFinish_runsWith : Keeps (RunsWith c) anFinish :=
  keeps_bind (RunsWith.analyzerKeeps c).anRun fun f => keeps_modify fun _ h => h.published f

end

/-! ## Commands (40_system_access.md R101, R106) -/

/-- `INIT` is refused in a running block, for the running state or, while a fault is recorded, for the lock (R92). -/
theorem exec_init_of_running {s : State} (h : s.running = true) :
    exec .init s = .next (s.respond .errState []) ∨ exec .init s = .next (s.respond .errFaulted []) := by
  by_cases hfault : s.fault = 0
  · exact .inl (command_of_wrongState (need := .stopped) (by simp [hfault]) (by rw [h]; rfl))
  · exact .inr (command_of_fault (need := .stopped) hfault)

section
variable {c : Cfg} {s t : State} (hs : RunsWith c s)
include hs

theorem command_runsWith {lock : Bool} {need : RunNeed} {body : M (List Word)} (h : command lock need body s = .next t)
    (hbody : Keeps (RunsWith c) body) : RunsWith c t :=
  command_leaves hs (fun _ _ _ hu => hu.update rfl rfl) (fun _ => hbody.leaves hs) h

/-- `WRREG` reaches no locked register (R106). -/
theorem execWrreg_runsWith {reg : Nat} {data : Word} (h : execWrreg reg data s = .next t) : RunsWith c t := by
  refine command_runsWith hs h (keeps_bind (keeps_regOperand _ reg) fun r => .of_leaves fun u hu => ?_)
  refine .bind_ok (M.get_apply u) (.require hu fun _ => .require hu fun hlock => .require hu fun _ => ?_)
  refine .bind_ok (M.set_apply _ _) (.pure (hu.putReg (fun hacc => ?_) data))
  rw [hacc, hu.running] at hlock
  cases hlock

/-- Every command leaves a running block running with its configuration. -/
theorem exec_runsWith {i : Instr} (h : exec i s = .next t) : RunsWith c t := by
  have hengine := RunsWith.engineKeeps c
  have hanalyzer := RunsWith.analyzerKeeps c
  cases i with
  | nop => exact command_runsWith (lock := true) (need := .either) (body := pure []) hs h (keeps_pure _ _)
  | init =>
    rcases exec_init_of_running hs.running with hrefused | hrefused
    all_goals
      cases hrefused.symm.trans h
      exact hs.update rfl rfl
  | rdreg reg =>
    exact command_runsWith hs h (keeps_bind (keeps_regOperand _ reg) fun _ => keeps_bind (keeps_get _) fun _ =>
      keeps_pure _ _)
  | wrreg reg data => exact execWrreg_runsWith hs h
  | rdmem space index =>
    exact command_runsWith hs h (keeps_bind (keeps_cellOperand _ _ _) fun _ =>
      keeps_bind (keeps_loadCell _ _ _) fun _ => keeps_pure _ _)
  | wrmem space index data =>
    exact command_runsWith hs h (keeps_bind (keeps_cellOperand _ _ _) fun _ => keeps_bind (keeps_get _) fun _ =>
      keeps_bind (keeps_require _ _ _) fun _ => keeps_bind (storeCell_runsWith c _ _ _) fun _ => keeps_pure _ _)
  | envProc inst x =>
    exact command_runsWith hs h (keeps_bind (keeps_require _ _ _) fun _ =>
      keeps_bind (envProcess_runsWith c inst x) fun _ => keeps_pure _ _)
  | lpfProc x => exact command_runsWith hs h (keeps_bind (lpfProcess_runsWith c x) fun _ => keeps_pure _ _)
  | zdProc x => exact command_runsWith hs h (keeps_bind (zdProcess_runsWith c x) fun _ => keeps_pure _ _)
  | cdProc x => exact command_runsWith hs h (keeps_bind (cdProcess_runsWith c x) fun _ => keeps_pure _ _)
  | ctProc x => exact command_runsWith hs h (keeps_bind (ctProcess_runsWith c x) fun _ => keeps_pure _ _)
  | anProc len =>
    refine command_runsWith hs h (keeps_bind (keeps_get _) fun _ => keeps_bind (keeps_require _ _ _) fun _ => ?_)
    have hrun : Keeps (RunsWith c) (do anLoad; let f ← anRun; pure [f]) :=
      keeps_bind hanalyzer.anLoad fun _ => keeps_bind hanalyzer.anRun fun _ => keeps_pure _ _
    have hraise : Keeps (RunsWith c) (raiseFault .windowLength len : M Unit) :=
      keeps_raise fun u hu => hu.recordFault .windowLength len
    exact keeps_ite (fun _ => keeps_bind hraise fun _ => hrun) fun _ => hrun
  | vSetRate v period =>
    exact command_runsWith hs h (keeps_bind (keeps_requireVoice _ v) fun _ => keeps_bind (keeps_require _ _ _) fun _ =>
      keeps_bind (hengine.voiceSetRate v period) fun _ => keeps_pure _ _)
  | vSetWave v len =>
    exact command_runsWith hs h (keeps_bind (keeps_requireVoice _ v) fun _ => keeps_bind (keeps_get _) fun _ =>
      keeps_bind (keeps_require _ _ _) fun _ => keeps_bind (voiceSetWaveform_runsWith c v len) fun _ => keeps_pure _ _)
  | vNext v =>
    exact command_runsWith hs h (keeps_bind (keeps_requireVoice _ v) fun _ => keeps_bind (hengine.voiceNext v) fun _ =>
      keeps_pure _ _)
  | engProc x => exact command_runsWith hs h (keeps_bind (engProcess_runsWith c x) fun _ => keeps_pure _ _)
  | pipeSmp x => exact command_runsWith hs h (keeps_bind (sampleStep_runsWith c x) fun _ => keeps_pure _ _)
  | pipeBlk =>
    exact command_runsWith hs h (keeps_bind (keeps_modify fun _ hu => hu.update rfl rfl) fun _ =>
      keeps_bind (keeps_get _) fun _ => keeps_bind (keeps_forFrom (blockSample_runsWith c) _ 0) fun _ => keeps_pure _ _)
  | ctick c0 c1 c2 c3 =>
    exact command_runsWith hs h (keeps_bind (keeps_modify fun _ hu => hu.update rfl rfl) fun _ => keeps_pure _ _)
  | fpoll =>
    refine command_runsWith hs h (.of_leaves fun u hu => .bind_ok (M.get_apply u) (.ite (fun _ => ?_) fun _ => ?_))
    · exact .bind_ok (M.set_apply _ _) (.pure (hu.update rfl rfl))
    · exact .pure hu

/-! ## Turns -/

/-- The agent's turn is one of its two steps, or idle (45_pipeline.md R229, R230). -/
theorem analyzerTurn_runsWith (h : analyzerTurn s = .next t) : RunsWith c t := by
  unfold analyzerTurn at h
  split at h
  case isTrue => exact agentOutcome_leaves hs (anFinish_runsWith c) h
  case isFalse =>
    split at h
    case isTrue => exact agentOutcome_leaves hs (anTake_runsWith c) h
    case isFalse => cases h; exact hs

theorem commandTurn_runsWith (h : commandTurn s = .next t) : RunsWith c t := by
  unfold commandTurn at h
  cases hdec : decode s.port with
  | command i rest =>
    rw [hdec] at h
    exact exec_runsWith (s := s.setPort rest) (hs.update rfl rfl) h
  | illegal why rest =>
    rw [hdec] at h
    cases h
    exact hs.update rfl rfl
  | incomplete =>
    rw [hdec] at h
    exact analyzerTurn_runsWith hs h

theorem step_runsWith (hreset : ¬ s.resetNext) (h : step s = .next t) : RunsWith c t := by
  rcases step_of_not_resetNext hreset with hturn | hturn
  · exact commandTurn_runsWith (s := s.setSched s.sched.tail) (hs.update rfl rfl) (hturn.symm.trans h)
  · exact analyzerTurn_runsWith (s := s.endTurn s.port) (hs.update rfl rfl) (hturn.symm.trans h)

end

end Sys2Proof.Machine

open Sys2Proof Sys2Proof.Machine

/-- Settles O13: no turn but reset leaves the running block or its configuration, from which the sizes follow. -/
theorem onlyResetUndoesInit : Obligations.OnlyResetUndoesInit := by
  intro s hrunning
  have hs : RunsWith s.cfg s := ⟨hrunning, rfl⟩
  refine ⟨fun t hreset hstep => ?_, exec_init_of_running hrunning⟩
  have ht := step_runsWith hs hreset hstep
  exact ⟨ht.running, ht.cfg, fun sp => (ht.spaceSize sp).trans (hs.spaceSize sp).symm⟩
end

section
/-! SUPPORT. The state that reset leaves (spec/70_reset_and_hazards.md R280, R281). -/

namespace Sys2Proof.Machine

/-! ## The turn (R280) -/

theorem step_of_reset {s : State} (h : s.sched.head? = some .reset) :
    step s = .next (s.endTurn s.port).deviceReset := by
  obtain ⟨rest, hrest⟩ := List.head?_eq_some_iff.1 h
  unfold step takeTurn State.endTurn
  rw [hrest]
  rfl

theorem step_of_resetInCommand {s : State} (h : s.sched.head? = some .resetInCommand) :
    step s = .next (s.endTurn (abandonCommand s.port)).deviceReset := by
  obtain ⟨rest, hrest⟩ := List.head?_eq_some_iff.1 h
  unfold step takeTurn State.endTurn
  rw [hrest]
  rfl

/-- The words dropped are as many as the word at the head announces (30_encoding.md R88); there may be fewer. -/
theorem abandonCommand_eq_drop (ws : List Word) :
    abandonCommand ws = ws.drop ((ws.head?.map commandLength).getD 0) := by
  cases ws with
  | nil => rfl
  | cons w ws => rfl

theorem deviceReset_agentIdle (s : State) : s.deviceReset.agentIdle := State.agentIdle_of_stopped rfl

/-! ## The registers (R281) -/

/-- Every bank, those beyond the last included, is the bank of zeros (10_state.md R50). -/
theorem State.voice_reset (v : Nat) : State.reset.voice v = Voice.reset := by
  unfold State.voice
  by_cases hv : v < 256 <;> simp [State.reset, hv]

theorem Voice.regWord_reset (j : VoiceReg) : Voice.reset.regWord j = 0 := by cases j <;> rfl

theorem State.regWord_reset (r : Reg) : State.reset.regWord r = 0 := by
  cases r with
  | voice v j => exact (congrArg (Voice.regWord · j) (State.voice_reset v)).trans (Voice.regWord_reset j)
  | _ => rfl

/-! ## The memories (20_memory.md R61) -/

theorem State.spaceSize_of_stopped {s : State} (h : s.running = false) (sp : Space) : s.spaceSize sp = 0 :=
  if_neg (by rw [h]; decide)

end Sys2Proof.Machine

open Sys2Proof Sys2Proof.Machine

/-- Settles O12: either kind of reset ends in `State.deviceReset`; they differ in the port. -/
theorem resetFromAnyState : Obligations.ResetFromAnyState := by
  intro s hreset
  rcases hreset with hbetween | hwithin
  · refine ⟨s.port, step_of_reset hbetween, fun _ => rfl, fun hhead => ?_,
      deviceReset_agentIdle (s.endTurn s.port)⟩
    exact absurd (hbetween.symm.trans hhead) (by decide)
  · refine ⟨abandonCommand s.port, step_of_resetInCommand hwithin, fun hhead => ?_,
      fun _ => abandonCommand_eq_drop s.port, deviceReset_agentIdle (s.endTurn (abandonCommand s.port))⟩
    exact absurd (hwithin.symm.trans hhead) (by decide)

/-- Settles O57: the registers read the zeros they hold, and a block that does not run has no memory. -/
theorem resetValues : Obligations.ResetValues := by
  exact ⟨State.regWord_reset, State.spaceSize_of_stopped rfl⟩
end
